-- ==== Sys2Proof/Word.lean ====
section
/-! DEFINITION. The word types of the machine (spec 00_scope.md R3, R9, R10). -/

namespace Sys2Proof

/-- A 32-bit value: a general register, a coprocessor 0 register, a virtual address (R3). -/
abbrev Word := BitVec 32

/-- A 16-bit value: half of an instruction, or a halfword of data (R60, R100). -/
abbrev Half := BitVec 16

/-- One byte of memory (R60). -/
abbrev Byte := BitVec 8

/-- The number of a general register, 0 to 31 (R20). -/
abbrev RegNum := Fin 32

/-- A three-bit register field of an instruction, not yet translated (R110). -/
abbrev RegField := BitVec 3

/-- Bit `i` of a word with the value `v` put there, every other bit kept. -/
def Word.withBit (w : Word) (i : Nat) (v : Bool) : Word :=
  if v then w ||| (1#32 <<< i) else w &&& ~~~(1#32 <<< i)

end Sys2Proof
end

