-- ==== Sys2Proof/Config.lean ====
section
/-! DEFINITION. The implementation parameters of 00_scope.md R8, as PLAIN DATA that the state carries
and no step changes, so that a claim may quantify over them or fix them; and the two opaque sources of
the values the spec leaves free (`draw`, R11). -/

namespace Sys2Proof

/-- The memory access type ("Cacheability and Coherency Attribute") of an access, by the three
properties the rules ask of it (R66, R71, R255, 91_not_in_source.md N9): is it cached; is it coherent;
is the location synchronizable by all that share it (R75). -/
structure Cca where
  cached : Bool
  coherent : Bool
  synchronizable : Bool
  deriving DecidableEq, Repr

/-- An interval of physical addresses, `base .. base + size - 1`. -/
structure Region where
  base : Nat
  size : Nat
  deriving DecidableEq, Repr

/-- What an access is for (R11, R66). `fetch` is the model's own: an instruction fetch is translated
like a load (assumption log 6). -/
inductive AccessKind where
  | load
  | store
  | cacheop
  | pref
  | fetch
  deriving DecidableEq, Repr

/-- Where the access type of an address comes from (R66): the address segment or the page fixes it, or it
is programmed in the field K0, KU or K23 of the register Config (R41). -/
inductive CcaSource where
  | fixed (cca : Cca)
  | k0
  | ku
  | k23
  deriving DecidableEq, Repr

/-- What a row of the parameter `AddressTranslation` gives (R66): the physical word number of the row's
first word with the source of the access type, or the exception raised instead. -/
inductive TransResult where
  | map (frame : Nat) (cca : CcaSource)
  | addressError
  | tlbRefill
  | tlbInvalid
  | tlbModified
  deriving DecidableEq, Repr

/-- One row of the parameter `AddressTranslation` (R8, R66, D2): it decides for the virtual words
`first .. last` (word numbers, so the two low address bits are always kept), for accesses of the listed
kinds, in the modes it names. Rows of their own for each kind make the result depend on the kind. -/
structure TransEntry where
  first : BitVec 30
  last : BitVec 30
  kinds : List AccessKind
  inPrivileged : Bool
  inUnprivileged : Bool
  result : TransResult
  deriving DecidableEq, Repr

/-- One row of the parameters `BusError` (over physical addresses, R267) and `WatchMatch` (over
virtual addresses, R268). -/
structure AddrMatch where
  region : Region
  onLoad : Bool
  onStore : Bool
  deriving DecidableEq, Repr

/-- The name of a coprocessor 0 register: its number and its select (R30). -/
structure Cp0Reg where
  number : BitVec 5
  sel : BitVec 3
  deriving DecidableEq, Repr

/-- One row of the parameters `IsCoprocessorRegisterImplemented` and `CP0WriteMask` (R177): a register
that exists, and the bits MTC0 can change. -/
structure Cp0Entry where
  reg : Cp0Reg
  mask : Word
  deriving DecidableEq, Repr

/-- What the parameter `CacheOp` says of one of the 32 (operation, cache) pairs (R151, R152, R153).
`refuse`: not modelled, refused by name. `notImplemented`: UNDEFINED. `keep`: completes and leaves
every byte of `MemByte` as it is. `loadTag`: completes with TagLo, TagHi (and DataLo, DataHi where they
exist) drawn. `cacheError`, `busError`: the operation ends in that exception. `absent`: the parameter gives
nothing for the pair (the first instance of R151); `refuse` is the refusal of the second instance. -/
inductive CacheEffect where
  | absent
  | refuse
  | notImplemented
  | keep
  | loadTag
  | cacheError
  | busError
  deriving DecidableEq, Repr

/-- The line size `2 ^ lineLog2`, the number of sets `2 ^ setsLog2` and the address used as the index
of one cache (R151, R153, R154), where the platform supplies them. -/
structure CacheGeometry where
  lineLog2 : Nat
  setsLog2 : Nat
  physicalIndex : Bool
  deriving DecidableEq, Repr

/-- A barrier as the three columns of R197 give it: which older accesses it orders (A) before which
younger ones (B), and which older ones are globally performed when it completes (C, filled for a
completion barrier only). -/
structure BarrierKind where
  olderLoads : Bool
  olderStores : Bool
  youngerLoads : Bool
  youngerStores : Bool
  doneLoads : Bool
  doneStores : Bool
  deriving DecidableEq, Repr

/-- The parameters of R8. -/
structure Config where
  /-- `XLat`: the general register of each 3-bit field (R22, log 3) -/
  xLat : Vector RegNum 8
  /-- `PSIZE`, which has no effect on any rule (R63): a physical address is a natural number -/
  psize : Nat
  /-- `HasMIPS16e2` (R2) -/
  hasMips16e2 : Bool
  /-- `BigEndianCPU` (R63, D1) -/
  bigEndian : Bool
  /-- `HasMT` (R32, D10) -/
  hasMT : Bool
  /-- `ArchitectureRevision` (D11) -/
  archRevision : Nat
  /-- the CP0 registers that exist, with their write masks (R30, R177, D13) -/
  cp0Regs : List Cp0Entry
  /-- `HWRImplemented(29)`, `HWRImplemented(30)`, `HWRImplemented(31)` (R178, D14) -/
  hwr29 : Bool
  hwr30 : Bool
  hwr31 : Bool
  /-- `SYNCI_StepSize` (R44) -/
  synciStep : Word
  /-- `CountResolution` (R285) -/
  countResolution : Word
  /-- `LLBlockBytes = 4 * 2 ^ llBlockLog2`: a power of two, at least 4 (D15) -/
  llBlockLog2 : Nat
  /-- `AddressTranslation(vAddr, kind)`: the first row that applies decides (R66, D2) -/
  translation : List TransEntry
  /-- the source of the access type of an address that no row applies to; it translates to itself (D2) -/
  defaultCca : CcaSource
  /-- the access type that each code of K0, KU and K23 stands for (R41, N9, log 21) -/
  ccaOfCode : Vector Cca 8
  /-- the size in bytes of kseg0, the unmapped segment at 0x80000000 (R66, R70) -/
  kseg0Size : Nat
  /-- whether CACHE raises Address Error for a kernel address from the wrong mode (R150, I3) -/
  cacheModeCheck : Bool
  /-- `CacheOp`, indexed by the 5-bit `op` (R151, D16) -/
  cacheOp : Vector CacheEffect 32
  /-- the geometry of the caches I, D, T, S, where the platform supplies it (R153) -/
  iGeometry : Option CacheGeometry
  dGeometry : Option CacheGeometry
  tGeometry : Option CacheGeometry
  sGeometry : Option CacheGeometry
  /-- `CacheLineBytes = 2 ^ n`, where the platform supplies it (R156, D27) -/
  cacheLineLog2 : Option Nat
  /-- `BusError` (R267, D28) -/
  busErrors : List AddrMatch
  /-- `WatchMatch` (R268, D29) -/
  watches : List AddrMatch
  /-- the physical addresses the launch memory populates (R70, D4) -/
  populated : List Region
  /-- the physical addresses of the program text, the only ones fetched from and never written (R78,
  D20) -/
  text : List Region
  /-- `StronglyOrdered` (R73, D17) -/
  stronglyOrdered : Bool
  /-- `SyncStypeBehaviour`: which of the optional stypes of R197 are implemented as lighter barriers -/
  syncOptional : List (BitVec 5)
  /-- `SyncStypeBehaviour`: the stypes 0x1-0x3, 0x5-0xF and the reserved 0x14-0x1F that something
  defines (R196, I13) -/
  syncVendor : List (BitVec 5 × BarrierKind)
  /-- `PauseMayResumeEarly` (R192, D18) -/
  pauseMayResumeEarly : Bool
  deriving DecidableEq, Repr

/-- `draw Bool` (R11): the model's FREE VALUE of type Bool, opaque, applied to the number of the draw. -/
opaque Config.freeBool : Nat → Bool

/-- `draw Word32` (R11, R285): the model's FREE VALUE of 32 bits, opaque, applied to the number of the
draw. -/
opaque Config.freeWord : Nat → Word

/-- The first instance of R151: CACHE is refused by name. -/
def Config.cacheOpAbsent : Vector CacheEffect 32 := Vector.replicate 32 .absent

/-- The second instance of R151, the transparent cache, in the order of the 5-bit `op`: for each
operation code the caches I, D, T, S (R152). -/
def Config.cacheOpTransparent : Vector CacheEffect 32 :=
  #v[.keep, .keep, .keep, .keep,                                        -- 000 Index (Writeback) Invalidate
     .loadTag, .loadTag, .loadTag, .loadTag,                            -- 001 Index Load Tag
     .refuse, .refuse, .refuse, .refuse,                                -- 010 Index Store Tag
     .refuse, .refuse, .refuse, .refuse,                                -- 011 implementation dependent
     .keep, .refuse, .refuse, .refuse,                                  -- 100 Hit Invalidate
     .keep, .keep, .keep, .keep,                                        -- 101 Fill / Hit Writeback Invalidate
     .notImplemented, .keep, .keep, .keep,                              -- 110 Hit Writeback
     .refuse, .refuse, .notImplemented, .notImplemented]                -- 111 Fetch and Lock

/-- A CP0 register whose every bit MTC0 can change. -/
def Config.plainCp0 (number : BitVec 5) (sel : BitVec 3) : Cp0Entry := ⟨⟨number, sel⟩, 0xFFFFFFFF#32⟩

/-- The CP0 registers the document names, at the numbers of the table of R30. DESIGN CHOICE (log 12):
all of them exist at launch, every bit writable but for the read-only ones of R177 and R39. -/
def Config.namedCp0 : List Cp0Entry :=
  [plainCp0 12 0, plainCp0 1 1, plainCp0 0 1, plainCp0 1 2, plainCp0 7 0, plainCp0 15 1,
   plainCp0 9 0, plainCp0 4 2, plainCp0 16 0, plainCp0 16 3, plainCp0 16 5, plainCp0 2 0,
   plainCp0 3 0, plainCp0 10 0, plainCp0 8 0, plainCp0 14 0, plainCp0 17 0, plainCp0 17 1,
   plainCp0 28 0, plainCp0 28 1, plainCp0 29 0, plainCp0 29 1]
  ++ [plainCp0 18 0, plainCp0 18 1, plainCp0 18 2, plainCp0 18 3, plainCp0 18 4, plainCp0 18 5,
   plainCp0 18 6, plainCp0 18 7, plainCp0 19 0, plainCp0 19 1, plainCp0 19 2, plainCp0 19 3,
   plainCp0 19 4, plainCp0 19 5, plainCp0 19 6, plainCp0 19 7]

/-- The cached coherent, synchronizable access type of D2's recommended translation. -/
def Config.coherentCca : Cca := ⟨true, true, true⟩

/-- The value R22 gives `XLat`, the MIPS16e register translation: 0, 1 name registers 16, 17; 2 to 7
name themselves. PRESUMED (log 3): the document uses the map and never defines it. -/
def Config.mips16eXLat : Vector RegNum 8 := #v[16, 17, 2, 3, 4, 5, 6, 7]

/-- The parameters the state after reset carries. DESIGN CHOICE (log 12): the spec leaves every one of
them to the launch. -/
def Config.launch : Config where
  xLat := Config.mips16eXLat
  psize := 32
  hasMips16e2 := true
  bigEndian := false
  hasMT := true
  archRevision := 5
  cp0Regs := Config.namedCp0
  hwr29 := true
  hwr30 := true
  hwr31 := true
  synciStep := 0#32
  countResolution := 1#32
  llBlockLog2 := 0
  translation := []
  defaultCca := .fixed Config.coherentCca
  ccaOfCode := Vector.replicate 8 Config.coherentCca
  kseg0Size := 0x20000000
  cacheModeCheck := true
  cacheOp := Config.cacheOpTransparent
  iGeometry := some ⟨5, 7, false⟩
  dGeometry := none
  tGeometry := none
  sGeometry := none
  cacheLineLog2 := some 5
  busErrors := []
  watches := []
  populated := [⟨0, 0x100000000⟩]
  text := []
  stronglyOrdered := false
  syncOptional := []
  syncVendor := []
  pauseMayResumeEarly := true

end Sys2Proof
end

