-- ==== Sys2Proof/Syntax.lean ====
section
/-! DEFINITION. The fifty instruction forms of spec/opcode_table.json, one constructor each (R1, R112).
Operand fields are kept at the width the encoding gives them (R101 to R110); a register field is
translated only when the instruction runs. -/

namespace Sys2Proof

/-- The abstract syntax. `rx`, `ry`, `rb` are three-bit register fields, `imm` is the reassembled
immediate (R108, R109); a `Zero` in a name marks the `$0` form, an `Ry` the form that returns the old
register. -/
inductive Instr where
  /-- ADDIU rx, gp, immediate (R140) -/
  | addiuGp (rx : RegField) (imm : BitVec 16)
  /-- ANDI rx, immediate (R141) -/
  | andi (rx : RegField) (imm : BitVec 16)
  /-- CACHE op, immediate(rx) (R150) -/
  | cache (op : BitVec 5) (imm : BitVec 9) (rx : RegField)
  /-- DI (R160) -/
  | di
  /-- DI ry (R161) -/
  | diRy (ry : RegField)
  /-- DMT (R162) -/
  | dmt
  /-- DMT ry (R163) -/
  | dmtRy (ry : RegField)
  /-- DVPE (R164) -/
  | dvpe
  /-- DVPE ry (R165) -/
  | dvpeRy (ry : RegField)
  /-- EHB (R190) -/
  | ehb
  /-- EI (R166) -/
  | ei
  /-- EI ry (R167) -/
  | eiRy (ry : RegField)
  /-- EMT (R168) -/
  | emt
  /-- EMT ry (R169) -/
  | emtRy (ry : RegField)
  /-- EVPE (R170) -/
  | evpe
  /-- EVPE ry (R171) -/
  | evpeRy (ry : RegField)
  /-- EXT ry, rx, pos, size (R200): `lsb = pos`, `msbd = size - 1` -/
  | ext (ry rx : RegField) (lsb msbd : BitVec 5)
  /-- INS ry, $0, pos, size (R201): `lsb = pos`, `msb = pos + size - 1` -/
  | insZero (ry : RegField) (lsb msb : BitVec 5)
  /-- INS ry, rx, pos, size (R202) -/
  | ins (ry rx : RegField) (lsb msb : BitVec 5)
  /-- LB rx, immediate(gp) (R212) -/
  | lb (rx : RegField) (imm : BitVec 16)
  /-- LBU rx, immediate(gp) (R213) -/
  | lbu (rx : RegField) (imm : BitVec 16)
  /-- LH rx, immediate(gp) (R214) -/
  | lh (rx : RegField) (imm : BitVec 16)
  /-- LHU rx, immediate(gp) (R215) -/
  | lhu (rx : RegField) (imm : BitVec 16)
  /-- LL rx, immediate(rb) (R218) -/
  | ll (rx : RegField) (imm : BitVec 9) (rb : RegField)
  /-- LUI rx, immediate (R142) -/
  | lui (rx : RegField) (imm : BitVec 16)
  /-- LWL rx, immediate(rb) (R222) -/
  | lwl (rx : RegField) (imm : BitVec 9) (rb : RegField)
  /-- LWR rx, immediate(rb) (R224) -/
  | lwr (rx : RegField) (imm : BitVec 9) (rb : RegField)
  /-- LW rx, immediate(gp) (R216) -/
  | lw (rx : RegField) (imm : BitVec 16)
  /-- MFC0 ry, r32, sel (R174) -/
  | mfc0 (ry : RegField) (r32 : BitVec 5) (sel : BitVec 3)
  /-- MOVN rx, $0, ry (R230) -/
  | movnZero (rx ry : RegField)
  /-- MOVN rx, rb, ry (R231) -/
  | movn (rx rb ry : RegField)
  /-- MOVTN rx, $0 (R232) -/
  | movtnZero (rx : RegField)
  /-- MOVTN rx, rb (R233) -/
  | movtn (rx rb : RegField)
  /-- MOVTZ rx, $0 (R234) -/
  | movtzZero (rx : RegField)
  /-- MOVTZ rx, rb (R235) -/
  | movtz (rx rb : RegField)
  /-- MOVZ rx, $0, ry (R236) -/
  | movzZero (rx ry : RegField)
  /-- MOVZ rx, rb, ry (R237) -/
  | movz (rx rb ry : RegField)
  /-- MTC0 ry, r32, sel (R175) -/
  | mtc0 (ry : RegField) (r32 : BitVec 5) (sel : BitVec 3)
  /-- ORI rx, immediate (R143) -/
  | ori (rx : RegField) (imm : BitVec 16)
  /-- PAUSE (R192) -/
  | pause
  /-- PREF hint, immediate(rx) (R155) -/
  | pref (hint : BitVec 5) (imm : BitVec 9) (rx : RegField)
  /-- RDHWR ry, HWR (R178) -/
  | rdhwr (ry : RegField) (hwr : BitVec 5)
  /-- SB rx, immediate(gp) (R240) -/
  | sb (rx : RegField) (imm : BitVec 16)
  /-- SC rx, immediate(rb) (R242) -/
  | sc (rx : RegField) (imm : BitVec 9) (rb : RegField)
  /-- SH rx, immediate(gp) (R246) -/
  | sh (rx : RegField) (imm : BitVec 16)
  /-- SWL rx, immediate(rb) (R250) -/
  | swl (rx : RegField) (imm : BitVec 9) (rb : RegField)
  /-- SWR rx, immediate(rb) (R252) -/
  | swr (rx : RegField) (imm : BitVec 9) (rb : RegField)
  /-- SW rx, immediate(gp) (R248) -/
  | sw (rx : RegField) (imm : BitVec 16)
  /-- SYNC stype (R195) -/
  | sync (stype : BitVec 5)
  /-- XORI rx, immediate (R144) -/
  | xori (rx : RegField) (imm : BitVec 16)
  deriving DecidableEq, Repr

end Sys2Proof
end

