-- ==== Sys2Proof/WellFormed.lean ====
section
/-! DEFINITION. The operand ranges of the assembler syntax (R115). The types of the operand fields
already hold every range but those of the bit-field instructions, whose two fields must name a field
inside a 32-bit register. -/

namespace Sys2Proof

/-- An instruction the assembler accepts (R115): EXT needs `pos + size <= 32`, that is
`lsb + msbd <= 31` (R200); INS needs `size >= 1` and `pos + size <= 32`, that is `lsb <= msb`
(R201, R202). Every other form is well formed for every value of its fields. The words of an
ill-formed EXT or INS still decode (they match their row of R112); running one is UNPREDICTABLE. -/
def Instr.wellFormed : Instr → Bool
  | .ext _ _ lsb msbd => lsb.toNat + msbd.toNat ≤ 31
  | .insZero _ lsb msb => lsb.toNat ≤ msb.toNat
  | .ins _ _ lsb msb => lsb.toNat ≤ msb.toNat
  | .addiuGp _ _ | .andi _ _ | .cache _ _ _ | .di | .diRy _ | .dmt | .dmtRy _ | .dvpe
  | .dvpeRy _ | .ehb | .ei | .eiRy _ | .emt | .emtRy _ | .evpe | .evpeRy _ | .lb _ _ | .lbu _ _
  | .lh _ _ | .lhu _ _ | .ll _ _ _ | .lui _ _ | .lwl _ _ _ | .lwr _ _ _ | .lw _ _ | .mfc0 _ _ _
  | .movnZero _ _ | .movn _ _ _ | .movtnZero _ | .movtn _ _ | .movtzZero _ | .movtz _ _
  | .movzZero _ _ | .movz _ _ _ | .mtc0 _ _ _ | .ori _ _ | .pause | .pref _ _ _ | .rdhwr _ _
  | .sb _ _ | .sc _ _ _ | .sh _ _ | .swl _ _ _ | .swr _ _ _ | .sw _ _ | .sync _ | .xori _ _ => true

end Sys2Proof
end

