-- ==== Sys2Proof/Decode.lean ====
section
/-! DEFINITION. Decoding and encoding (30_encoding.md R100 to R113), over the instruction word
`I[31:0]`, and the layout of the word in memory (R80). -/

namespace Sys2Proof

/-- Why bytes are no instruction of this spec (R113; the model refuses them, by this name). -/
inductive DecodeError where
  /-- fewer bytes than the instruction has -/
  | truncated
  /-- the first halfword does not begin with EXTEND = 11110 (R100) -/
  | notExtend
  /-- no form of R111 has this major opcode -/
  | unassignedMajor
  /-- the selector (sel, function, cp0op, or the register pair of a bit family) is not assigned -/
  | unassignedSelector
  /-- a field that the figure fixes at a constant holds another value -/
  | fixedField
  deriving DecidableEq, Repr

/-- `w[lo + len - 1 : lo]` (R9). -/
def field (w : Word) (lo len : Nat) : BitVec len := w.extractLsb' lo len

/-- `imm16 = I[20:16] || I[26:21] || I[4:0]` (R108). -/
def imm16Of (w : Word) : BitVec 16 := field w 16 5 ++ field w 21 6 ++ field w 0 5

/-- `imm9 = I[24:21] || I[4:0]` (R109). -/
def imm9Of (w : Word) : BitVec 9 := field w 21 4 ++ field w 0 5

/-- The register fields (R110). -/
def rxOf (w : Word) : RegField := field w 8 3
/-- `ry = I[7:5]` (R110). -/
def ryOf (w : Word) : RegField := field w 5 3
/-- `rb = I[18:16]` (R110). -/
def rbOf (w : Word) : RegField := field w 16 3

/-- Major LI, `01101`: selector `I[7:5]` (R111). -/
def decodeLi (w : Word) : Except DecodeError Instr :=
  let sel := field w 5 3
  if sel = 1#3 then .ok (.lui (rxOf w) (imm16Of w))
  else if sel = 2#3 then .ok (.ori (rxOf w) (imm16Of w))
  else if sel = 3#3 then .ok (.andi (rxOf w) (imm16Of w))
  else if sel = 4#3 then .ok (.xori (rxOf w) (imm16Of w))
  else .error .unassignedSelector

/-- Major LWSP, `10010`: selector `I[7:5]`; LL, LWL and LWR also fix `I[26:25]` and `I[20:19]`
(R103, R111). -/
def decodeLwsp (w : Word) : Except DecodeError Instr :=
  let sel := field w 5 3
  if sel = 1#3 then .ok (.lw (rxOf w) (imm16Of w))
  else if sel = 2#3 then .ok (.lh (rxOf w) (imm16Of w))
  else if sel = 3#3 then .ok (.lb (rxOf w) (imm16Of w))
  else if sel = 4#3 then .ok (.lhu (rxOf w) (imm16Of w))
  else if sel = 5#3 then .ok (.lbu (rxOf w) (imm16Of w))
  else if sel = 6#3 then
    if field w 25 2 = 0#2 ∧ field w 19 2 = 0#2 then .ok (.ll (rxOf w) (imm9Of w) (rbOf w))
    else .error .fixedField
  else if sel = 7#3 then
    if field w 25 2 = 0#2 ∧ field w 19 2 = 0#2 then .ok (.lwl (rxOf w) (imm9Of w) (rbOf w))
    else if field w 25 2 = 0#2 ∧ field w 19 2 = 2#2 then .ok (.lwr (rxOf w) (imm9Of w) (rbOf w))
    else .error .fixedField
  else .error .unassignedSelector

/-- Major SWSP, `11010`: selector `I[7:5]`; PREF, CACHE, SC, SWL and SWR also fix `I[26:25]`, the
last three `I[20:19]` (R102, R103, R111). -/
def decodeSwsp (w : Word) : Except DecodeError Instr :=
  let sel := field w 5 3
  if sel = 1#3 then .ok (.sw (rxOf w) (imm16Of w))
  else if sel = 2#3 then .ok (.sh (rxOf w) (imm16Of w))
  else if sel = 3#3 then .ok (.sb (rxOf w) (imm16Of w))
  else if sel = 4#3 then
    if field w 25 2 = 0#2 then .ok (.pref (field w 16 5) (imm9Of w) (rxOf w))
    else .error .fixedField
  else if sel = 5#3 then
    if field w 25 2 = 0#2 then .ok (.cache (field w 16 5) (imm9Of w) (rxOf w))
    else .error .fixedField
  else if sel = 6#3 then
    if field w 25 2 = 0#2 ∧ field w 19 2 = 0#2 then .ok (.sc (rxOf w) (imm9Of w) (rbOf w))
    else .error .fixedField
  else if sel = 7#3 then
    if field w 25 2 = 0#2 ∧ field w 19 2 = 0#2 then .ok (.swl (rxOf w) (imm9Of w) (rbOf w))
    else if field w 25 2 = 0#2 ∧ field w 19 2 = 2#2 then .ok (.swr (rxOf w) (imm9Of w) (rbOf w))
    else .error .fixedField
  else .error .unassignedSelector

/-- Major SHIFT with function SLL, `I[1:0] = 00`: selector `I[4:2]` (R105, R111). -/
def decodeSll (w : Word) : Except DecodeError Instr :=
  let sel := field w 2 3
  if sel = 1#3 then
    if field w 21 1 = 1#1 then .ok (.ins (ryOf w) (rxOf w) (field w 22 5) (field w 16 5))
    else if field w 8 3 = 0#3 then .ok (.insZero (ryOf w) (field w 22 5) (field w 16 5))
    else .error .fixedField
  else if sel = 2#3 then
    if field w 21 1 = 1#1 then .ok (.ext (ryOf w) (rxOf w) (field w 22 5) (field w 16 5))
    else .error .fixedField
  else if sel = 3#3 then
    if field w 21 6 = 0#6 ∧ field w 8 3 = 0#3 then .ok (.rdhwr (ryOf w) (field w 16 5))
    else .error .fixedField
  else if sel = 4#3 then
    if field w 16 11 = 0b00011000000#11 ∧ field w 5 6 = 0#6 then .ok .ehb
    else .error .fixedField
  else if sel = 5#3 then
    if field w 16 6 = 0#6 ∧ field w 5 6 = 0#6 then .ok (.sync (field w 22 5))
    else .error .fixedField
  else if sel = 6#3 then
    if field w 16 11 = 0b00101000000#11 ∧ field w 5 6 = 0#6 then .ok .pause
    else .error .fixedField
  else .error .unassignedSelector

/-- Major SHIFT with function SRL, `I[1:0] = 10`: selector `I[4:2]`, register form or `$0` form by
`I[21]` (R106, R111). -/
def decodeSrl (w : Word) : Except DecodeError Instr :=
  let sel := field w 2 3
  if field w 22 5 ≠ 0#5 ∨ field w 19 2 ≠ 0#2 then .error .fixedField
  else if field w 21 1 = 1#1 then
    if sel = 1#3 then .ok (.movz (rxOf w) (rbOf w) (ryOf w))
    else if sel = 2#3 then .ok (.movn (rxOf w) (rbOf w) (ryOf w))
    else if sel = 5#3 then
      if field w 5 3 = 0#3 then .ok (.movtz (rxOf w) (rbOf w)) else .error .fixedField
    else if sel = 6#3 then
      if field w 5 3 = 0#3 then .ok (.movtn (rxOf w) (rbOf w)) else .error .fixedField
    else .error .unassignedSelector
  else if field w 16 3 ≠ 0#3 then .error .fixedField
  else if sel = 1#3 then .ok (.movzZero (rxOf w) (ryOf w))
  else if sel = 2#3 then .ok (.movnZero (rxOf w) (ryOf w))
  else if sel = 5#3 then
    if field w 5 3 = 0#3 then .ok (.movtzZero (rxOf w)) else .error .fixedField
  else if sel = 6#3 then
    if field w 5 3 = 0#3 then .ok (.movtnZero (rxOf w)) else .error .fixedField
  else .error .unassignedSelector

/-- Major I8, `01100`, with MOVR32 and CP0: `cp0op = I[20:16]`, and for the bit families the
register named by `(I[23:21], I[4:0])`: Status, VPEControl or MVPControl (R104, R111). -/
def decodeCp0 (w : Word) : Except DecodeError Instr :=
  let cp0op := field w 16 5
  let sel := field w 21 3
  let r32 := field w 0 5
  if field w 8 3 ≠ 7#3 ∨ field w 24 3 ≠ 0#3 then .error .fixedField
  else if cp0op = 0#5 then .ok (.mfc0 (ryOf w) r32 sel)
  else if cp0op = 1#5 then .ok (.mtc0 (ryOf w) r32 sel)
  else if cp0op = 2#5 then
    if sel = 0#3 ∧ r32 = 12#5 then .ok (.diRy (ryOf w))
    else if sel = 1#3 ∧ r32 = 1#5 then .ok (.dmtRy (ryOf w))
    else if sel = 1#3 ∧ r32 = 0#5 then .ok (.dvpeRy (ryOf w))
    else .error .unassignedSelector
  else if cp0op = 3#5 then
    if sel = 0#3 ∧ r32 = 12#5 then .ok (.eiRy (ryOf w))
    else if sel = 1#3 ∧ r32 = 1#5 then .ok (.emtRy (ryOf w))
    else if sel = 1#3 ∧ r32 = 0#5 then .ok (.evpeRy (ryOf w))
    else .error .unassignedSelector
  else if cp0op = 6#5 then
    if field w 5 3 ≠ 0#3 then .error .fixedField
    else if sel = 0#3 ∧ r32 = 12#5 then .ok .di
    else if sel = 1#3 ∧ r32 = 1#5 then .ok .dmt
    else if sel = 1#3 ∧ r32 = 0#5 then .ok .dvpe
    else .error .unassignedSelector
  else if cp0op = 7#5 then
    if field w 5 3 ≠ 0#3 then .error .fixedField
    else if sel = 0#3 ∧ r32 = 12#5 then .ok .ei
    else if sel = 1#3 ∧ r32 = 1#5 then .ok .emt
    else if sel = 1#3 ∧ r32 = 0#5 then .ok .evpe
    else .error .unassignedSelector
  else .error .unassignedSelector

/-- The decoder over the instruction word: EXTEND, then the major opcode `I[15:11]` (R111). A word
that matches no row of R112 is rejected by name (R113). -/
def decodeWord (w : Word) : Except DecodeError Instr :=
  let major := field w 11 5
  if field w 27 5 ≠ 0b11110#5 then .error .notExtend
  else if major = 0b00000#5 then
    if field w 5 3 = 1#3 then .ok (.addiuGp (rxOf w) (imm16Of w))
    else .error .unassignedSelector
  else if major = 0b01101#5 then decodeLi w
  else if major = 0b10010#5 then decodeLwsp w
  else if major = 0b11010#5 then decodeSwsp w
  else if major = 0b00110#5 then
    if field w 0 2 = 0b00#2 then decodeSll w
    else if field w 0 2 = 0b10#2 then decodeSrl w
    else .error .unassignedSelector
  else if major = 0b01100#5 then decodeCp0 w
  else .error .unassignedMajor

/-- A halfword from its two bytes at rising addresses, in the byte order `bigEndian` (R64). -/
def halfOfBytes (bigEndian : Bool) (b0 b1 : Byte) : Half :=
  if bigEndian then b0 ++ b1 else b1 ++ b0

/-- The decoder over the bytes at `pc`, rising addresses: the halfword with EXTEND first, each
halfword in the data byte order (R80, R100). -/
def decodeBytes (bigEndian : Bool) : List Byte → Except DecodeError Instr
  | b0 :: b1 :: rest =>
    let hw0 := halfOfBytes bigEndian b0 b1
    if hw0.extractLsb' 11 5 ≠ 0b11110#5 then .error .notExtend
    else
      match rest with
      | b2 :: b3 :: _ => decodeWord (hw0 ++ halfOfBytes bigEndian b2 b3)
      | _ => .error .truncated
  | _ => .error .truncated

/-! ## The encoder: the formats R101 to R106 written out from left (bit 31) to right (bit 0). -/

/-- Format EXT-I16 (R101). -/
def encodeI16 (major : BitVec 5) (sel rx : BitVec 3) (imm : BitVec 16) : Word :=
  0b11110#5 ++ imm.extractLsb' 5 6 ++ imm.extractLsb' 11 5 ++ major ++ rx ++ sel
    ++ imm.extractLsb' 0 5

/-- Format EXT-I9OP (R102). -/
def encodeI9Op (sel rx : BitVec 3) (op : BitVec 5) (imm : BitVec 9) : Word :=
  0b11110#5 ++ 0#2 ++ imm.extractLsb' 5 4 ++ op ++ 0b11010#5 ++ rx ++ sel ++ imm.extractLsb' 0 5

/-- Format EXT-I9RB (R103). -/
def encodeI9Rb (major : BitVec 5) (sub : BitVec 2) (sel rx rb : BitVec 3) (imm : BitVec 9) : Word :=
  0b11110#5 ++ 0#2 ++ imm.extractLsb' 5 4 ++ sub ++ rb ++ major ++ rx ++ sel
    ++ imm.extractLsb' 0 5

/-- Format EXT-CP0 (R104). -/
def encodeCp0 (cp0op : BitVec 5) (sel ry : BitVec 3) (r32 : BitVec 5) : Word :=
  0b11110#5 ++ 0#3 ++ sel ++ cp0op ++ 0b01100#5 ++ 7#3 ++ ry ++ r32

/-- Format EXT-SLL (R105). -/
def encodeSll (fa : BitVec 5) (b : BitVec 1) (fb : BitVec 5) (rx ry sel : BitVec 3) : Word :=
  0b11110#5 ++ fa ++ b ++ fb ++ 0b00110#5 ++ rx ++ ry ++ sel ++ 0b00#2

/-- Format EXT-SRL (R106). -/
def encodeSrl (b : BitVec 1) (rb rx ry sel : BitVec 3) : Word :=
  0b11110#5 ++ 0#5 ++ b ++ 0#2 ++ rb ++ 0b00110#5 ++ rx ++ ry ++ sel ++ 0b10#2

/-- The instruction word of an instruction (R101 to R106 with the constants of R111). -/
def encode : Instr → Word
  | .addiuGp rx imm => encodeI16 0b00000#5 1#3 rx imm
  | .lui rx imm => encodeI16 0b01101#5 1#3 rx imm
  | .ori rx imm => encodeI16 0b01101#5 2#3 rx imm
  | .andi rx imm => encodeI16 0b01101#5 3#3 rx imm
  | .xori rx imm => encodeI16 0b01101#5 4#3 rx imm
  | .lw rx imm => encodeI16 0b10010#5 1#3 rx imm
  | .lh rx imm => encodeI16 0b10010#5 2#3 rx imm
  | .lb rx imm => encodeI16 0b10010#5 3#3 rx imm
  | .lhu rx imm => encodeI16 0b10010#5 4#3 rx imm
  | .lbu rx imm => encodeI16 0b10010#5 5#3 rx imm
  | .ll rx imm rb => encodeI9Rb 0b10010#5 0#2 6#3 rx rb imm
  | .lwl rx imm rb => encodeI9Rb 0b10010#5 0#2 7#3 rx rb imm
  | .lwr rx imm rb => encodeI9Rb 0b10010#5 2#2 7#3 rx rb imm
  | .sw rx imm => encodeI16 0b11010#5 1#3 rx imm
  | .sh rx imm => encodeI16 0b11010#5 2#3 rx imm
  | .sb rx imm => encodeI16 0b11010#5 3#3 rx imm
  | .pref hint imm rx => encodeI9Op 4#3 rx hint imm
  | .cache op imm rx => encodeI9Op 5#3 rx op imm
  | .sc rx imm rb => encodeI9Rb 0b11010#5 0#2 6#3 rx rb imm
  | .swl rx imm rb => encodeI9Rb 0b11010#5 0#2 7#3 rx rb imm
  | .swr rx imm rb => encodeI9Rb 0b11010#5 2#2 7#3 rx rb imm
  | .insZero ry lsb msb => encodeSll lsb 0#1 msb 0#3 ry 1#3
  | .ins ry rx lsb msb => encodeSll lsb 1#1 msb rx ry 1#3
  | .ext ry rx lsb msbd => encodeSll lsb 1#1 msbd rx ry 2#3
  | .rdhwr ry hwr => encodeSll 0#5 0#1 hwr 0#3 ry 3#3
  | .ehb => encodeSll 3#5 0#1 0#5 0#3 0#3 4#3
  | .sync stype => encodeSll stype 0#1 0#5 0#3 0#3 5#3
  | .pause => encodeSll 5#5 0#1 0#5 0#3 0#3 6#3
  | .movz rx rb ry => encodeSrl 1#1 rb rx ry 1#3
  | .movzZero rx ry => encodeSrl 0#1 0#3 rx ry 1#3
  | .movn rx rb ry => encodeSrl 1#1 rb rx ry 2#3
  | .movnZero rx ry => encodeSrl 0#1 0#3 rx ry 2#3
  | .movtz rx rb => encodeSrl 1#1 rb rx 0#3 5#3
  | .movtzZero rx => encodeSrl 0#1 0#3 rx 0#3 5#3
  | .movtn rx rb => encodeSrl 1#1 rb rx 0#3 6#3
  | .movtnZero rx => encodeSrl 0#1 0#3 rx 0#3 6#3
  | .mfc0 ry r32 sel => encodeCp0 0#5 sel ry r32
  | .mtc0 ry r32 sel => encodeCp0 1#5 sel ry r32
  | .diRy ry => encodeCp0 2#5 0#3 ry 12#5
  | .dmtRy ry => encodeCp0 2#5 1#3 ry 1#5
  | .dvpeRy ry => encodeCp0 2#5 1#3 ry 0#5
  | .eiRy ry => encodeCp0 3#5 0#3 ry 12#5
  | .emtRy ry => encodeCp0 3#5 1#3 ry 1#5
  | .evpeRy ry => encodeCp0 3#5 1#3 ry 0#5
  | .di => encodeCp0 6#5 0#3 0#3 12#5
  | .dmt => encodeCp0 6#5 1#3 0#3 1#5
  | .dvpe => encodeCp0 6#5 1#3 0#3 0#5
  | .ei => encodeCp0 7#5 0#3 0#3 12#5
  | .emt => encodeCp0 7#5 1#3 0#3 1#5
  | .evpe => encodeCp0 7#5 1#3 0#3 0#5

/-- A halfword's two bytes at rising addresses (R65). -/
def bytesOfHalf (bigEndian : Bool) (h : Half) : List Byte :=
  if bigEndian then [h.extractLsb' 8 8, h.extractLsb' 0 8]
  else [h.extractLsb' 0 8, h.extractLsb' 8 8]

/-- The four bytes of an instruction word as they lie at `pc .. pc+3` (R80). -/
def bytesOfWord (bigEndian : Bool) (w : Word) : List Byte :=
  bytesOfHalf bigEndian (w.extractLsb' 16 16) ++ bytesOfHalf bigEndian (w.extractLsb' 0 16)

/-- The word that the opcode table's numbering names: `w` as `I[31:0]`, bits from `nbits` up read
as 0. The table numbers the whole instruction as one 32-bit number. -/
def tableWord (nbits w : Nat) : Word := BitVec.ofNat 32 (w % 2 ^ nbits)

/-- What the decoder reads from an instruction whose bits are `w`: the word is laid out as the
machine stores it and read back from its bytes. (The byte order is little-endian here; the answer is
the same in either order.) -/
def decodeTableWord (nbits w : Nat) : Option Instr :=
  match decodeBytes false (bytesOfWord false (tableWord nbits w)) with
  | .ok i => some i
  | .error _ => none

end Sys2Proof
end

