-- ==== Sys2Proof/Machine/State.lean ====
section
/-! DEFINITION. The state of the machine (10_state.md), the reasons a step can stop, and the state
after reset. -/

namespace Sys2Proof.Machine

/-- The load or the store flavour of an exception (R264). -/
inductive Flavour where
  | load
  | store
  deriving DecidableEq, Repr

/-- The exceptions of R260 with the information R262 says they carry: the flavour where there are two,
the virtual address for address and TLB exceptions. -/
inductive Trap where
  /-- Coprocessor Unusable, for the coprocessor of that number (always 0, R280) -/
  | coprocessorUnusable (unit : Nat)
  /-- Reserved Instruction (R271) -/
  | reservedInstruction
  /-- Address Error: AdEL or AdES (R67, R281) -/
  | addressError (flavour : Flavour) (vAddr : Word)
  /-- TLB Refill: TLBL or TLBS (R66) -/
  | tlbRefill (flavour : Flavour) (vAddr : Word)
  /-- TLB Invalid: TLBL or TLBS (R66) -/
  | tlbInvalid (flavour : Flavour) (vAddr : Word)
  /-- TLB Modified, by a store only (R66) -/
  | tlbModified (vAddr : Word)
  /-- Watch (R268) -/
  | watch
  /-- Bus Error (R267) -/
  | busError
  /-- Cache Error (R269) -/
  | cacheError
  deriving DecidableEq, Repr

/-- The uses the document calls UNPREDICTABLE without naming a result (93 section 1). -/
inductive Unpredictable where
  /-- any form on an implementation without MIPS16e2 (R2, U1) -/
  | noMips16e2
  /-- EXT with `lsb + msbd > 31` (R200, U2) -/
  | extField
  /-- INS with `lsb > msb` (R201, R202, U3) -/
  | insField
  /-- CACHE that may invalidate the line holding it (R153, U6) -/
  | cacheOwnLine
  /-- PAUSE in a delay slot (R193, U10) -/
  | pauseInDelaySlot
  /-- a location accessed with two access types (R71, U11) -/
  | accessTypes
  /-- LL or SC to a location that is not synchronizable (R75, R218, U13) -/
  | notSynchronizable
  deriving DecidableEq, Repr

/-- The uses the document calls UNDEFINED (93 section 1). -/
inductive Undefined where
  /-- CACHE with an operation/cache combination that is not implemented (R153, U4) -/
  | cacheCombination
  /-- CACHE by address on an uncacheable address (R153, U5) -/
  | cacheUncached
  /-- MFC0 of a register that does not exist, before Release 6 (R174, U8) -/
  | mfc0NoRegister
  /-- MTC0 of a register that does not exist (R175, U9) -/
  | mtc0NoRegister
  deriving DecidableEq, Repr

/-- Why the machine stops with a fault. -/
inductive Fault where
  /-- `Trap E info` (R4 b, R262): an exception is signalled. R263 makes it the end of the run, with the
  state as it was before the instruction. Raised by the operations that test for an exception. Safe:
  nothing is claimed of what follows. -/
  | trap (e : Trap)
  /-- The outcome `Unpredictable` of R6. Raised by the instruction whose rule says so. Safe: no value
  is assigned. -/
  | unpredictable (why : Unpredictable)
  /-- The outcome `Undefined` of R7. Raised by CACHE, MFC0 and MTC0. Safe: no value is assigned. -/
  | undefined (why : Undefined)
  deriving DecidableEq, Repr

/-- Why the model refuses to go on. -/
inductive Refusal where
  /-- The instruction has no meaning yet. Raised by `exec`. Safe. -/
  | notModelled (mnemonic : String)
  /-- The bytes at the pc are no instruction of this spec (R113, D9). Raised by the fetch. Safe. -/
  | notInSpec (why : DecodeError)
  /-- Fetch at an odd pc (R28, D8). Safe. -/
  | fetchOddPc
  /-- Fetch of an instruction across the top of the address space (R28, D8). Safe. -/
  | fetchStraddle
  /-- The translation of the pc raises (no rule describes an exception of a fetch). Safe. -/
  | fetchTranslation (e : Trap)
  /-- Fetch from unpopulated memory (I28). Safe. -/
  | fetchUnpopulated
  /-- Fetch from outside the program text (R78, D20, log 7). Safe. -/
  | fetchOutsideText
  /-- Data access outside populated memory (R70, R267, D4, D28). Safe. -/
  | dataUnpopulated
  /-- Store into the program text, by this processor or another agent (R78, D20). Safe. -/
  | textWrite
  /-- A CACHE operation whose effect the parameter CacheOp does not give (R151, D16). Safe. -/
  | cacheOpNotModelled
  /-- PREF hint 30 without the parameter CacheLineBytes (R156, D27). Safe. -/
  | prefNoLineSize
  deriving DecidableEq, Repr

/-- A completed translation: the virtual address, the physical address and the access type (R66). -/
structure Access where
  vAddr : Word
  pAddr : Nat
  cca : Cca
  deriving DecidableEq, Repr

/-- The coprocessor 0 fields whose change can be pending (R48). -/
inductive HazardField where
  | statusIE
  | vpeControlTE
  | mvpControlEVP
  | statusCU0
  deriving DecidableEq, Repr

/-- One event of the memory history of R198: an access with the physical addresses of its bytes and
its access type, or a SYNC. -/
inductive MemEvent where
  | access (kind : AccessKind) (bytes : List Nat) (cca : Cca)
  | barrier (kind : BarrierKind)
  deriving DecidableEq, Repr

/-- What another agent can do between two instructions (R287): store bytes to physical addresses, or
execute a CACHE operation that reaches this processor's caches (R77 item 5). DESIGN CHOICE (log 2): which
CP0 registers streams share the document does not say (R287, N20); no event changes one. -/
inductive EnvEvent where
  | store (pAddr : Nat) (bytes : List Byte)
  | cacheOp
  deriving DecidableEq, Repr

/-- The whole state. -/
structure State where
  /-- `x[0] .. x[31]` (R20) -/
  gpr : Vector Word 32
  /-- the address of the instruction being executed (R26) -/
  pc : Word
  /-- `CPR[0, r, s]` at index `8 * r + s` (R30 to R43) -/
  cp0 : Vector Word 256
  /-- the processor is in a mode that has coprocessor 0 access by itself (R280) -/
  privileged : Bool
  /-- the instruction stands in a delay slot (R29, R193) -/
  inDelaySlot : Bool
  /-- the stream is `Blocked` by a PAUSE (R4 e, R192); `pc` is the address of the PAUSE -/
  waiting : Bool
  /-- `LLbit` (R46) -/
  llBit : Bool
  /-- an LL has been executed in this run, so that an SC is "preceded by execution of an LL" (R243,
  R244, log 23) -/
  llSeen : Bool
  /-- `LLaddr` (R46) -/
  llAddr : Access
  /-- `LLtaint` (R47) -/
  llTaint : Bool
  /-- `LLlo` (R47, R256) -/
  llLo : Word
  /-- `LLhi` (R47, R256) -/
  llHi : Word
  /-- `HazardPending`: each pending field with its value before the change (R48) -/
  hazards : List (HazardField × Bool)
  /-- `MemByte` by physical address (R62, R79), in canonical form (Machine/Ops.lean) -/
  mem : List Host.Cell
  /-- the memory history of R198, newest event first -/
  history : List MemEvent
  /-- what other agents do before the next instruction (the head), before the one after it, and so on
  (R287) -/
  env : List (List EnvEvent)
  /-- the model's own: how many free values have been drawn (R11) -/
  draws : Nat
  /-- the parameters of R8; no step changes them -/
  cfg : Config
  deriving DecidableEq, Repr

/-- The reset values of the CP0 registers that are not zero: PRESUMED (log 10), those of MIPS32, whose
layout R30 takes. Status has BEV and ERL set, VPEConf0 has VPA and MVP, Config has M and AR = 1, EBase
has its fixed top bit, Config3 has M and MT, Config5 has LLB. -/
def resetCp0 : Vector Word 256 :=
  (((((Vector.replicate 256 0#32).set 96 0x00400004#32).set 10 0x00000003#32).set 121
    0x80000000#32).set 128 0x80000400#32).set 131 0x80000004#32 |>.set 133 0x00000010#32

/-- The machine right after reset. The spec states no reset value (R300) except that `x[0]` reads as
zero and `HazardPending` is empty; every other value is PRESUMED or a DESIGN CHOICE (logs 10, 11, 12). -/
def State.reset : State where
  gpr := Vector.replicate 32 0#32
  pc := 0xBFC00000#32
  cp0 := resetCp0
  privileged := true
  inDelaySlot := false
  waiting := false
  llBit := false
  llSeen := false
  llAddr := ⟨0#32, 0, Config.coherentCca⟩
  llTaint := false
  llLo := 0#32
  llHi := 0#32
  hazards := []
  mem := []
  history := []
  env := []
  draws := 0
  cfg := Config.launch

end Sys2Proof.Machine
end

