-- ==== Sys2Proof/Machine/Ops.lean ====
section
/-! DEFINITION. The named operations over memory, registers and addresses, and the one operation that
signals an exception. -/

namespace Sys2Proof.Machine

/-! ## How an operation stops -/

/-- Why an operation answers no state. -/
inductive Stop where
  | fault (f : Fault)
  | refused (r : Refusal)
  deriving DecidableEq, Repr

/-- The outcome of a step that stops. -/
def stopOutcome : Stop → Host.Outcome State Fault Refusal
  | .fault f => .fault f
  | .refused r => .refused r

/-- The outcome of an instruction whose operations answered `r`. -/
def finish : Except Stop State → Host.Outcome State Fault Refusal
  | .ok s => .next s
  | .error e => stopOutcome e

/-- `raise E(info)` (R262): TAKING AN EXCEPTION. The instruction ends with `Trap E info`, nothing the
rule lists after the raise happens, and the run ends there (R263): the spec describes no exception
entry and no return from one (00_scope.md section 3, 91_not_in_source.md N2), so there is no next state
to give. -/
def raise {α : Type} (e : Trap) : Except Stop α := .error (.fault (.trap e))

/-- The outcome `Unpredictable` (R6). -/
def unpredictable {α : Type} (why : Unpredictable) : Except Stop α :=
  .error (.fault (.unpredictable why))

/-- The outcome `Undefined` (R7). -/
def undefinedUse {α : Type} (why : Undefined) : Except Stop α := .error (.fault (.undefined why))

/-- A refusal by name. -/
def refuse {α : Type} (why : Refusal) : Except Stop α := .error (.refused why)

/-! ## Memory: a list of (physical address, byte) in one canonical form -/

/-- What a populated address that nothing has written reads as. DESIGN CHOICE (log 9): zero; the spec
leaves it unspecified (R300). -/
def unlistedByte : Byte := 0#8

/-- `MemByte(a)` (R62). -/
def readByte : List Host.Cell → Nat → Byte
  | [], _ => unlistedByte
  | c :: m, a => if c.1 = a then c.2 else readByte m a

/-- `MemByte(a) <- b` (R62), keeping the canonical form. -/
def writeByte : List Host.Cell → Nat → Byte → List Host.Cell
  | [], a, b => if b = unlistedByte then [] else [(a, b)]
  | c :: m, a, b =>
    if a < c.1 then (if b = unlistedByte then c :: m else (a, b) :: c :: m)
    else if a = c.1 then (if b = unlistedByte then m else (a, b) :: m)
    else c :: writeByte m a b

/-- The byte writes of one access, in order. -/
def writeBytes (m : List Host.Cell) (cells : List (Nat × Byte)) : List Host.Cell :=
  cells.foldl (fun m c => writeByte m c.1 c.2) m

/-- The canonical form from address `lo` on: strictly rising addresses, none below `lo`, no entry equal
to what an unlisted address reads as. -/
def Memory.wfFrom : Nat → List Host.Cell → Bool
  | _, [] => true
  | lo, c :: m => decide (lo ≤ c.1) && decide (c.2 ≠ unlistedByte) && Memory.wfFrom (c.1 + 1) m

/-- The canonical form of a memory. -/
def Memory.wf (m : List Host.Cell) : Bool := Memory.wfFrom 0 m

/-- The address lies in the interval. -/
def inRegion (a : Nat) (r : Region) : Bool := decide (r.base ≤ a) && decide (a < r.base + r.size)

/-- The physical address is in the launch memory (R70, D4). -/
def populated (cfg : Config) (a : Nat) : Bool := cfg.populated.any (inRegion a)

/-- The physical address is program text (R78, D20). -/
def inText (cfg : Config) (a : Nat) : Bool := cfg.text.any (inRegion a)

/-- The bytes `p .. p + n - 1`. -/
def byteSpan (p n : Nat) : List Nat := (List.range n).map (p + ·)

/-- `MemRead(a, 1)` (R64). -/
def memRead1 (s : State) (p : Nat) : Byte := readByte s.mem p

/-- `MemRead(a, 2)` in the current byte order (R64). -/
def memRead2 (s : State) (p : Nat) : Half :=
  halfOfBytes s.cfg.bigEndian (readByte s.mem p) (readByte s.mem (p + 1))

/-- `MemRead(a, 4)` in the current byte order (R64). -/
def memRead4 (s : State) (p : Nat) : Word :=
  let b0 := readByte s.mem p
  let b1 := readByte s.mem (p + 1)
  let b2 := readByte s.mem (p + 2)
  let b3 := readByte s.mem (p + 3)
  if s.cfg.bigEndian then b0 ++ b1 ++ b2 ++ b3 else b3 ++ b2 ++ b1 ++ b0

/-- Byte `i` of a word, byte 0 the least significant (`Y[i]` of R220 and R249). -/
def byteOf (w : Word) (i : Nat) : Byte := w.extractLsb' (8 * i) 8

/-- `MemWrite(a, n, v)` for `n` in {1, 2, 4} (R65): the bytes stored at `p .. p + n - 1`. -/
def writeCells (bigEndian : Bool) (p n : Nat) (v : Word) : List (Nat × Byte) :=
  (List.range n).map fun k => (p + k, byteOf v (if bigEndian then n - 1 - k else k))

/-! ## General registers -/

/-- `x[n]`: register 0 reads as zero (R21). -/
def readGpr (s : State) (n : RegNum) : Word := if n = 0 then 0#32 else s.gpr[n]

/-- `x[n] <- v`: a write to register 0 is discarded (R21). -/
def writeGpr (s : State) (n : RegNum) (v : Word) : State :=
  { s with gpr := if n = 0 then s.gpr else s.gpr.set n.val v n.isLt }

/-- `pc <- pc + 4` modulo 2^32, the end of every instruction that completes (R27). -/
def advance (s : State) : State := { s with pc := s.pc + 4#32 }

/-! ## Coprocessor 0 cells -/

/-- The place of `CPR[0, r, s]` in the state. -/
def cp0Index (r : Cp0Reg) : Fin 256 :=
  ⟨8 * r.number.toNat + r.sel.toNat, by have := r.number.isLt; have := r.sel.isLt; omega⟩

/-- The stored value of `CPR[0, r, s]` (R30). -/
def readCp0 (s : State) (r : Cp0Reg) : Word := s.cp0[cp0Index r]

/-- `CPR[0, r, s] <- v`, every bit. -/
def writeCp0 (s : State) (r : Cp0Reg) (v : Word) : State :=
  { s with cp0 := s.cp0.set (cp0Index r).val v (cp0Index r).isLt }

/-! ## Free values -/

/-- `draw Bool` (R11): the free value that number `draws` names; `drawn` moves on to the next. -/
def drawBool (s : State) : Bool := Config.freeBool s.draws

/-- `draw Word32` (R11). -/
def drawWord (s : State) : Word := Config.freeWord s.draws

/-- The state after one draw. -/
def drawn (s : State) : State := { s with draws := s.draws + 1 }

/-! ## The memory history -/

/-- The state with one more event in the history of R198. -/
def record (s : State) (e : MemEvent) : State := { s with history := e :: s.history }

/-- An earlier load or store of one of the bytes had another access type (R71). The rule does not say
by whom it was made: DESIGN CHOICE (log 16), by this processor. -/
def typeConflict (s : State) (bytes : List Nat) (cca : Cca) : Bool :=
  s.history.any fun e =>
    match e with
    | .access .load bs c => decide (c ≠ cca) && bs.any (bytes.contains ·)
    | .access .store bs c => decide (c ≠ cca) && bs.any (bytes.contains ·)
    | .access .cacheop _ _ => false
    | .access .pref _ _ => false
    | .access .fetch _ _ => false
    | .barrier _ => false

/-! ## Address translation -/

/-- The flavour of the exceptions of an access of that kind (R264). -/
def flavourOf : AccessKind → Flavour
  | .store => .store
  | .load | .cacheop | .pref | .fetch => .load

/-- The base of kseg0, the unmapped segment (R66, R70). -/
def kseg0Base : Nat := 0x80000000

/-- The address lies in kseg0, where no translation raises a TLB exception (R66). -/
def inKseg0 (cfg : Config) (v : Word) : Bool :=
  decide (kseg0Base ≤ v.toNat) && decide (v.toNat < kseg0Base + cfg.kseg0Size)

/-- The row of an access that no row of the parameter applies to: every address translates to itself
(D2). -/
def identityEntry (cfg : Config) : TransEntry :=
  ⟨0#30, BitVec.allOnes 30, [], true, true, .map 0 cfg.defaultCca⟩

/-- What R66 and R150 let a row answer for an access: no TLB exception in kseg0, TLB Modified for a
store only, Address Error from CACHE only where the implementation makes that test (I3). -/
def resultAllowed (cfg : Config) (kind : AccessKind) (v : Word) : TransResult → Bool
  | .map _ _ => true
  | .addressError => decide (kind ≠ .cacheop) || cfg.cacheModeCheck
  | .tlbRefill => !inKseg0 cfg v
  | .tlbInvalid => !inKseg0 cfg v
  | .tlbModified => !inKseg0 cfg v && decide (kind = .store)

/-- The row applies to the access: its words, its kinds, its modes (R281 d), and an answer the rules
allow. -/
def entryApplies (cfg : Config) (privileged : Bool) (kind : AccessKind) (v : Word) (e : TransEntry) :
    Bool :=
  let w := v.extractLsb' 2 30
  decide (e.first ≤ w) && decide (w ≤ e.last) && e.kinds.contains kind &&
    (if privileged then e.inPrivileged else e.inUnprivileged) && resultAllowed cfg kind v e.result

/-- The row that decides for an access: the first that applies. -/
def transEntry (cfg : Config) (privileged : Bool) (kind : AccessKind) (v : Word) : TransEntry :=
  match cfg.translation.find? (entryApplies cfg privileged kind v) with
  | some e => e
  | none => identityEntry cfg

/-- The physical address: the row's frame, moved on by the word's distance from the row's first, with
the two low bits kept. -/
def physOf (first : BitVec 30) (frame : Nat) (v : Word) : Nat :=
  4 * (frame + ((v.extractLsb' 2 30).toNat - first.toNat)) + v.toNat % 4

/-- Config, (16, 0) (R30, R41). -/
def configReg : Cp0Reg := ⟨16#5, 0#3⟩

/-- The access type that a three-bit field of Config programs, `low` being its lowest bit. -/
def programmedCca (s : State) (low : Nat) : Cca :=
  s.cfg.ccaOfCode[((readCp0 s configReg).extractLsb' low 3).toFin]

/-- The access type of an address (R66): the row's own, or the one programmed in K0 (bits 2:0), KU (27:25)
or K23 (30:28) of Config (R30, R41). -/
def ccaFrom (s : State) : CcaSource → Cca
  | .fixed cca => cca
  | .k0 => programmedCca s 0
  | .ku => programmedCca s 25
  | .k23 => programmedCca s 28

/-- `Translate(vAddr, kind)` (R66): the answer of the row that decides, an exception in the flavour of
the access (R264). -/
def translate (s : State) (kind : AccessKind) (v : Word) : Except Trap Access :=
  let e := transEntry s.cfg s.privileged kind v
  match e.result with
  | .map frame cca => .ok ⟨v, physOf e.first frame v, ccaFrom s cca⟩
  | .addressError => .error (.addressError (flavourOf kind) v)
  | .tlbRefill => .error (.tlbRefill (flavourOf kind) v)
  | .tlbInvalid => .error (.tlbInvalid (flavourOf kind) v)
  | .tlbModified => .error (.tlbModified v)

/-- A row of `BusError` or `WatchMatch` applies to the address for that flavour. -/
def addrMatch (a : Nat) (f : Flavour) (r : AddrMatch) : Bool :=
  inRegion a r.region && (match f with | .load => r.onLoad | .store => r.onStore)

/-- `BusError(pAddr, kind)` (R267). -/
def busErrorAt (cfg : Config) (f : Flavour) (p : Nat) : Bool := cfg.busErrors.any (addrMatch p f)

/-- `WatchMatch(vAddr, kind)` (R268). -/
def watchAt (cfg : Config) (f : Flavour) (v : Word) : Bool := cfg.watches.any (addrMatch v.toNat f)

end Sys2Proof.Machine
end

