-- ==== Sys2Proof/Machine/Operands.lean ====
section
/-! DEFINITION. The operand forms: the translated register fields, gp and T, the two addressing modes,
and the bytes an unaligned-word access touches. -/

namespace Sys2Proof.Machine

/-- `XLat(f)` (R8, R22): the parameter's register for a 3-bit field. -/
def xLat (cfg : Config) (f : RegField) : RegNum := cfg.xLat[f.toFin]

/-- `gp`, register 28 (R23). -/
def gpReg : RegNum := 28

/-- `T`, register 24 (R24). -/
def tReg : RegNum := 24

/-- `x[XLat(f)]`. -/
def readX (s : State) (f : RegField) : Word := readGpr s (xLat s.cfg f)

/-- `x[XLat(f)] <- v`. -/
def writeX (s : State) (f : RegField) (v : Word) : State :=
  writeGpr s (xLat s.cfg f) v

/-- `sext_32` of a 16-bit immediate (R10, R108). -/
def sext16 (imm : BitVec 16) : Word := imm.signExtend 32

/-- `zext_32` of a 16-bit immediate (R10, R108). -/
def zext16 (imm : BitVec 16) : Word := imm.zeroExtend 32

/-- `sext_32` of a 9-bit immediate (R109). -/
def sext9 (imm : BitVec 9) : Word := imm.signExtend 32

/-- The GP-relative address `x[28] + sext_32(imm16)`, modulo 2^32 (R60, R61). -/
def gpAddr (s : State) (imm : BitVec 16) : Word := readGpr s gpReg + sext16 imm

/-- The address `x[XLat(base)] + sext_32(imm9)`, modulo 2^32 (R60, R61). -/
def baseAddr (s : State) (base : RegField) (imm : BitVec 9) : Word := readX s base + sext9 imm

/-! ## Unaligned words: `b = vAddr[1:0]`, `p` the physical address -/

/-- `b = vAddr[1:0]` (R220). -/
def lowBits (v : Word) : Nat := v.toNat % 4

/-- `byte = vAddr[1:0] xor BigEndianCPU^2` (R220, R249). -/
def laneByte (bigEndian : Bool) (v : Word) : Nat := if bigEndian then 3 - lowBits v else lowBits v

/-- The bytes from the address to the end of its aligned word (R220, R249). -/
def upSpan (p b : Nat) : List Nat := byteSpan p (4 - b)

/-- The bytes from the start of the aligned word to the address (R220, R249). -/
def downSpan (p b : Nat) : List Nat := byteSpan (p - b) (b + 1)

/-- The bytes LWL and SWL touch: `byte + 1` of them (R68). -/
def leftSpan (bigEndian : Bool) (p b : Nat) : List Nat :=
  if bigEndian then upSpan p b else downSpan p b

/-- The bytes LWR and SWR touch: `4 - byte` of them (R68). -/
def rightSpan (bigEndian : Bool) (p b : Nat) : List Nat :=
  if bigEndian then downSpan p b else upSpan p b

/-- LWL: `memword[7+8*byte : 0] || x[23-8*byte : 0]` (R220). -/
def mergeLeft (byte : Nat) (memword old : Word) : Word :=
  (memword <<< (24 - 8 * byte)) ||| (old &&& BitVec.ofNat 32 (2 ^ (24 - 8 * byte) - 1))

/-- LWR: `x[31 : 32-8*byte] || memword[31 : 8*byte]` (R220, 90_conflicts.md C6). -/
def mergeRight (byte : Nat) (memword old : Word) : Word :=
  (old &&& ~~~(BitVec.ofNat 32 (2 ^ (32 - 8 * byte) - 1))) ||| (memword >>> (8 * byte))

/-- SWL: the bytes stored (R249). -/
def leftCells (bigEndian : Bool) (p b : Nat) (y : Word) : List (Nat × Byte) :=
  if bigEndian then (List.range (4 - b)).map fun i => (p + i, byteOf y (3 - i))
  else (List.range (b + 1)).map fun i => (p - i, byteOf y (3 - i))

/-- SWR: the bytes stored (R249). -/
def rightCells (bigEndian : Bool) (p b : Nat) (y : Word) : List (Nat × Byte) :=
  if bigEndian then (List.range (b + 1)).map fun i => (p - i, byteOf y i)
  else (List.range (4 - b)).map fun i => (p + i, byteOf y i)

/-! ## Bit fields (R200 to R202) -/

/-- The word with ones in bits `msb .. lsb` and zeros elsewhere, for `lsb <= msb <= 31`. -/
def fieldMask (lsb msb : Nat) : Word := BitVec.ofNat 32 ((2 ^ (msb + 1 - lsb) - 1) * 2 ^ lsb)

/-- `0^(32-(msbd+1)) || x[msbd+lsb : lsb]` (R200). -/
def extractField (x : Word) (lsb msbd : Nat) : Word := (x >>> lsb) &&& fieldMask 0 msbd

/-- `y[31 : msb+1] || x[msb-lsb : 0] || y[lsb-1 : 0]` (R202; with `x = 0` R201). -/
def insertField (y x : Word) (lsb msb : Nat) : Word :=
  (y &&& ~~~(fieldMask lsb msb)) ||| ((x <<< lsb) &&& fieldMask lsb msb)

end Sys2Proof.Machine
end

