-- ==== Sys2Proof/Machine/Flags.lean ====
section
/-! DEFINITION. The named registers and fields of coprocessor 0, the pending hazards, the test of
coprocessor 0 access, and the link state of LL and SC. No instruction writes a condition code (R51). -/

namespace Sys2Proof.Machine

/-! ## Names (R30). Only the numbers of Status, VPEControl and MVPControl are the document's; the other
numbers and every bit position are PRESUMED, those of MIPS32 (log 4). -/

/-- Status, (12, 0) (R31) -/
def statusReg : Cp0Reg := ⟨12#5, 0#3⟩
/-- VPEControl, (1, 1) (R32) -/
def vpeControlReg : Cp0Reg := ⟨1#5, 1#3⟩
/-- MVPControl, (0, 1) (R33) -/
def mvpControlReg : Cp0Reg := ⟨0#5, 1#3⟩
/-- VPEConf0, (1, 2) (R34) -/
def vpeConf0Reg : Cp0Reg := ⟨1#5, 2#3⟩
/-- HWREna, (7, 0) (R35) -/
def hwrEnaReg : Cp0Reg := ⟨7#5, 0#3⟩
/-- EBase, (15, 1) (R36) -/
def eBaseReg : Cp0Reg := ⟨15#5, 1#3⟩
/-- Count, (9, 0) (R37) -/
def countReg : Cp0Reg := ⟨9#5, 0#3⟩
/-- UserLocal, (4, 2) (R38) -/
def userLocalReg : Cp0Reg := ⟨4#5, 2#3⟩
/-- Config5, (16, 5) (R39) -/
def config5Reg : Cp0Reg := ⟨16#5, 5#3⟩
/-- BadVAddr, (8, 0), read-only (R43, R177) -/
def badVAddrReg : Cp0Reg := ⟨8#5, 0#3⟩
/-- EPC, (14, 0) (R43, R192) -/
def epcReg : Cp0Reg := ⟨14#5, 0#3⟩
/-- LLAddr, (17, 0), read-only (R43, R177) -/
def llAddrReg : Cp0Reg := ⟨17#5, 0#3⟩
/-- TagLo, (28, 0) (R42) -/
def tagLoReg : Cp0Reg := ⟨28#5, 0#3⟩
/-- DataLo, (28, 1) (R42) -/
def dataLoReg : Cp0Reg := ⟨28#5, 1#3⟩
/-- TagHi, (29, 0) (R42) -/
def tagHiReg : Cp0Reg := ⟨29#5, 0#3⟩
/-- DataHi, (29, 1) (R42) -/
def dataHiReg : Cp0Reg := ⟨29#5, 1#3⟩

/-- The register that holds a field whose change can be pending (R31 to R33). -/
def fieldReg : HazardField → Cp0Reg
  | .statusIE => statusReg
  | .vpeControlTE => vpeControlReg
  | .mvpControlEVP => mvpControlReg
  | .statusCU0 => statusReg

/-- The bit of that field: IE 0, TE 15, EVP 0, CU0 28 (R30). -/
def fieldPos : HazardField → Nat
  | .statusIE => 0
  | .vpeControlTE => 15
  | .mvpControlEVP => 0
  | .statusCU0 => 28

/-- The stored value of a field. -/
def fieldBit (s : State) (f : HazardField) : Bool := (readCp0 s (fieldReg f)).getLsbD (fieldPos f)

/-- `VPEConf0.MVP`: the executing VPE is a Master VPE (R34). -/
def masterVpe (s : State) : Bool := (readCp0 s vpeConf0Reg).getLsbD 1

/-- `Config5.LLB` (R39, the parameter `Config5LLB` of R8): a read-only bit of the register. -/
def config5LLB (s : State) : Bool := (readCp0 s config5Reg).getLsbD 4

/-- `Config5.XNP` (R39, R44). -/
def config5XNP (s : State) : Bool := (readCp0 s config5Reg).getLsbD 13

/-- `EBase.CPUNum`, bits 9:0 (R36). -/
def cpuNum (s : State) : BitVec 10 := (readCp0 s eBaseReg).extractLsb' 0 10

/-! ## Which registers exist and what MTC0 writes -/

/-- The registers of the MT Module exist only with it (R32 to R34, D10). -/
def mtRegister (r : Cp0Reg) : Bool := r = vpeControlReg || r = mvpControlReg || r = vpeConf0Reg

/-- `IsCoprocessorRegisterImplemented(0, reg, sel)` (R30, D10, D13). -/
def cp0Implemented (cfg : Config) (r : Cp0Reg) : Bool :=
  cfg.cp0Regs.any (fun e => e.reg = r) && (cfg.hasMT || !mtRegister r)

/-- The bits of Config5 that are read-only as far as this spec goes: LLB, MVH, XNP (R39). -/
def config5Fixed : Word := 0x00002030#32

/-- `CP0WriteMask(reg, sel)` (R177): the parameter's mask, less the read-only registers LLAddr and
BadVAddr and the read-only fields of Config5. -/
def writeMask (cfg : Config) (r : Cp0Reg) : Word :=
  if r = llAddrReg || r = badVAddrReg then 0#32
  else
    match cfg.cp0Regs.find? (fun e => e.reg = r) with
    | none => 0#32
    | some e => if r = config5Reg then e.mask &&& ~~~config5Fixed else e.mask

/-! ## Pending execution hazards (R48) -/

/-- `HazardPending <- HazardPending + (field, old)` (R172, R177). -/
def addHazard (s : State) (f : HazardField) (old : Bool) : State :=
  { s with hazards := if s.hazards.contains (f, old) then s.hazards else (f, old) :: s.hazards }

/-- `HazardPending <- {}` (R190). -/
def clearHazards (s : State) : State := { s with hazards := [] }

/-- Some pending old value of the field differs from the stored one, so that a read may see either. -/
def hazardOpen (s : State) (f : HazardField) : Bool :=
  s.hazards.any fun h => decide (h.1 = f) && decide (h.2 ≠ fieldBit s f)

/-- The field as a read inside a hazard window sees it: `draw {old, current}` (R173, R280). -/
def seenBit (s : State) (f : HazardField) : Bool :=
  if hazardOpen s f then drawBool s else fieldBit s f

/-- The state after such a read: one draw, if there was one. -/
def seenState (s : State) (f : HazardField) : State := if hazardOpen s f then drawn s else s

/-- The field changed to `v`, its old value pending (R172). -/
def changeField (s : State) (f : HazardField) (v : Bool) : State :=
  addHazard (writeCp0 s (fieldReg f) ((readCp0 s (fieldReg f)).withBit (fieldPos f) v)) f
    (fieldBit s f)

/-! ## Access to coprocessor 0 (R280) -/

/-- `Cop0Enabled = Privileged or Status.CU0`, the second as a read inside a hazard window sees it. -/
def cop0Enabled (s : State) : Bool := s.privileged || seenBit s .statusCU0

/-- The state after the test: a draw is made only where the test reads a pending `Status.CU0`. -/
def cop0State (s : State) : State := if s.privileged then s else seenState s .statusCU0

/-- The first test of every coprocessor 0 instruction (R172, R265 item 1). -/
def requireCop0 (s : State) : Except Stop State :=
  if cop0Enabled s then .ok (cop0State s) else raise (.coprocessorUnusable 0)

/-- The test of the MT Module (R172, R271). -/
def requireMT (s : State) : Except Stop State :=
  if s.cfg.hasMT then .ok s else raise .reservedInstruction

/-! ## Reading a CP0 register (R173, R174, R285) -/

/-- The value MFC0 and the `ry` forms read: a draw for Count, the pending bit drawn for VPEControl and
MVPControl, else the stored word. -/
def cp0Value (s : State) (r : Cp0Reg) : Word :=
  if r = countReg then drawWord s
  else if r = vpeControlReg then (readCp0 s r).withBit 15 (seenBit s .vpeControlTE)
  else if r = mvpControlReg then (readCp0 s r).withBit 0 (seenBit s .mvpControlEVP)
  else readCp0 s r

/-- The state after that read. -/
def cp0ReadState (s : State) (r : Cp0Reg) : State :=
  if r = countReg then drawn s
  else if r = vpeControlReg then seenState s .vpeControlTE
  else if r = mvpControlReg then seenState s .mvpControlEVP
  else s

/-- `CPR[0, reg, sel] <- data` as MTC0 does it (R175, R177): the writable bits only, and a change of
Status.CU0 becomes pending. -/
def mtc0Write (s : State) (r : Cp0Reg) (data : Word) : State :=
  let m := writeMask s.cfg r
  let t := writeCp0 s r ((readCp0 s r &&& ~~~m) ||| (data &&& m))
  if fieldBit t .statusCU0 ≠ fieldBit s .statusCU0 then addHazard t .statusCU0 (fieldBit s .statusCU0)
  else t

/-! ## The link state of LL and SC (R46, R47, R75 to R77, R255, R256) -/

/-- `LLBlockBytes` (D15). -/
def llBlockBytes (cfg : Config) : Nat := 4 * 2 ^ cfg.llBlockLog2

/-- The physical address lies in the block of the linked word (R255). -/
def inLinkBlock (s : State) (p : Nat) : Bool :=
  decide (p / llBlockBytes s.cfg = s.llAddr.pAddr / llBlockBytes s.cfg)

/-- `NoteLoad(pAddr, CCA)` (R255). -/
def noteLoad (s : State) (a : Access) : State :=
  { s with llTaint := s.llTaint || (s.llBit && !(inLinkBlock s a.pAddr && config5LLB s)) }

/-- What a store by this processor does to an open sequence (R255), `inBlock` saying whether one of its
bytes lies in the linked block. -/
def noteStoreIn (s : State) (inBlock coherent : Bool) : State :=
  let clears := inBlock && coherent && config5LLB s
  { s with
    llBit := s.llBit && !clears
    llTaint := s.llTaint || (s.llBit && !clears) }

/-- `NoteStore(pAddr, CCA)` (R255). -/
def noteStore (s : State) (a : Access) : State :=
  noteStoreIn s (inLinkBlock s a.pAddr) a.cca.coherent

/-- `if LLbit = 1 then LLtaint <- 1`: PREF, CACHE, and a CACHE operation of another processor (R77). -/
def taintLink (s : State) : State := { s with llTaint := s.llTaint || s.llBit }

/-- LL: `LLbit <- 1`, `LLaddr` recorded, `LLtaint <- 0`, the region restarted at the LL (R218, R256). -/
def setLink (s : State) (a : Access) : State :=
  { s with llBit := true, llSeen := true, llAddr := a, llTaint := false, llLo := s.pc, llHi := s.pc + 3#32 }

/-- SC: `LLbit <- 0` (R242). -/
def clearLink (s : State) : State := { s with llBit := false }

/-- The 2048-byte test, the SC itself included (R256). -/
def windowOk (s : State) : Bool :=
  decide (max s.llHi.toNat (s.pc.toNat + 3) + 1 ≤ min s.llLo.toNat s.pc.toNat + 2048)

/-- The success of the SC is a draw: R243, rows 3 and 4, and, where `Config5LLB = 0`, an SC with no LL
before it (R244, 93 U14). DESIGN CHOICE (log 23): for that SC row 1 of R243 says `false`, R244 and U14
`draw Bool`; the draw allows both. -/
def scIsDrawn (s : State) (a : Access) : Bool :=
  if s.llBit then (if a = s.llAddr then s.llTaint || !windowOk s else !config5LLB s)
  else !s.llSeen && !config5LLB s

/-- `SCSucceeds(vAddr, pAddr, CCA)` (R243). -/
def scSucceeds (s : State) (a : Access) : Bool :=
  if scIsDrawn s a then drawBool s else s.llBit && decide (a = s.llAddr)

/-- The state after that decision. -/
def scState (s : State) (a : Access) : State := if scIsDrawn s a then drawn s else s

end Sys2Proof.Machine
end

