-- ==== Sys2Proof/Machine/AluImmediate.lean ====
section
/-! DEFINITION. Arithmetic and logic with a 16-bit immediate (40_alu_immediate.md). No exception, no
flag, no memory (R140 to R144). -/

namespace Sys2Proof.Machine

/-- ADDIU rx, gp, immediate (R140). -/
def execAddiuGp (rx : RegField) (imm : BitVec 16) (s : State) : Host.Outcome State Fault Refusal :=
  .next (advance (writeX s rx (readGpr s gpReg + sext16 imm)))

/-- ANDI rx, immediate (R141). -/
def execAndi (rx : RegField) (imm : BitVec 16) (s : State) : Host.Outcome State Fault Refusal :=
  .next (advance (writeX s rx (readX s rx &&& zext16 imm)))

/-- LUI rx, immediate (R142): `imm16 || 0^16`. -/
def execLui (rx : RegField) (imm : BitVec 16) (s : State) : Host.Outcome State Fault Refusal :=
  .next (advance (writeX s rx (imm ++ 0#16)))

/-- ORI rx, immediate (R143). -/
def execOri (rx : RegField) (imm : BitVec 16) (s : State) : Host.Outcome State Fault Refusal :=
  .next (advance (writeX s rx (readX s rx ||| zext16 imm)))

/-- XORI rx, immediate (R144). -/
def execXori (rx : RegField) (imm : BitVec 16) (s : State) : Host.Outcome State Fault Refusal :=
  .next (advance (writeX s rx (readX s rx ^^^ zext16 imm)))

end Sys2Proof.Machine
end

