-- ==== Sys2Proof/Machine/Barriers.lean ====
section
/-! DEFINITION. Barriers and waiting (43_barriers.md). -/

namespace Sys2Proof.Machine

/-- EHB (R190): every pending execution hazard is cleared. -/
def execEhb (s : State) : Host.Outcome State Fault Refusal :=
  .next (advance (clearHazards s))

/-- `EPC <- draw {EPC, pc + 4}` where the register exists (R192, D32). -/
def pauseEpc (s : State) : State :=
  if cp0Implemented s.cfg epcReg then
    drawn (if drawBool s then writeCp0 s epcReg (s.pc + 4#32) else s)
  else s

/-- The stream becomes `Blocked` (R4 e, R192): the pc stays at the PAUSE until the stream resumes. -/
def blockStream (s : State) : State := { pauseEpc s with waiting := true }

/-- PAUSE (R192, R193). -/
def execPause (s : State) : Host.Outcome State Fault Refusal :=
  if s.inDelaySlot then .fault (.unpredictable .pauseInDelaySlot)
  else if s.llBit then .next (blockStream s)
  else .next (advance s)

/-- The resumption is left to the implementation: LLbit is still 1 and PAUSE may resume early (R192). -/
def resumeIsDrawn (s : State) : Bool := s.llBit && s.cfg.pauseMayResumeEarly

/-- The blocked stream goes on: LLbit is 0, or the implementation chooses (R192, D18). -/
def resumes (s : State) : Bool := if resumeIsDrawn s then drawBool s else !s.llBit

/-- One step of a blocked stream: it resumes at `pc + 4`, or it stays blocked and executes nothing. -/
def pollPause (s : State) : State :=
  let t := if resumeIsDrawn s then drawn s else s
  if resumes s then advance { t with waiting := false } else t

/-- The completion barrier of stype 0 (R196, R197). -/
def fullBarrier : BarrierKind := ⟨true, true, true, true, true, true⟩

/-- The optional ordering barriers of R197: stypes 0x4, 0x10, 0x11, 0x12, 0x13. -/
def orderingBarrier (stype : BitVec 5) : Option BarrierKind :=
  match stype.toNat with
  | 0x04 => some ⟨false, true, false, true, false, false⟩
  | 0x10 => some ⟨true, true, true, true, false, false⟩
  | 0x11 => some ⟨true, false, true, true, false, false⟩
  | 0x12 => some ⟨true, true, false, true, false, false⟩
  | 0x13 => some ⟨true, false, true, false, false, false⟩
  | _ => none

/-- `SyncStypeBehaviour(stype)` (R196, I13): stype 0 is the full completion barrier; an implemented
optional stype its row; any other one what the parameter defines it to be, a reserved one too; a value
that nothing defines acts as stype 0. -/
def syncBarrier (cfg : Config) (stype : BitVec 5) : BarrierKind :=
  if stype = 0#5 then fullBarrier
  else
    match orderingBarrier stype with
    | some b => if cfg.syncOptional.contains stype then b else fullBarrier
    | none =>
      match cfg.syncVendor.find? (fun e => e.1 = stype) with
      | some e => e.2
      | none => fullBarrier

/-- SYNC stype (R195, R198): the barrier takes its place in the memory history; nothing else of the
processor's own state changes. -/
def execSync (stype : BitVec 5) (s : State) : Host.Outcome State Fault Refusal :=
  .next (advance (record s (.barrier (syncBarrier s.cfg stype))))

/-! ## What a barrier orders (R74, R197, R198) -/

/-- The barrier affects only uncached and cached coherent accesses (R74, R195). DESIGN CHOICE (log 16):
which memory is shared the spec does not say; every location counts as shared by every agent, so that
the access type alone makes an access synchronizable for a barrier. -/
def barrierAffects (cca : Cca) : Bool := !cca.cached || cca.coherent

/-- The access counts as a load: loads, and CACHE and PREF, which "are treated as loads and stores". -/
def countsAsLoad : AccessKind → Bool
  | .load | .cacheop | .pref => true
  | .store | .fetch => false

/-- The access counts as a store. -/
def countsAsStore : AccessKind → Bool
  | .store | .cacheop | .pref => true
  | .load | .fetch => false

/-- The event is among the older accesses the barrier orders (column A of R197). -/
def olderOf (b : BarrierKind) : MemEvent → Bool
  | .access k _ cca =>
    barrierAffects cca && ((b.olderLoads && countsAsLoad k) || (b.olderStores && countsAsStore k))
  | .barrier _ => false

/-- The event is among the younger accesses the barrier orders (column B of R197). -/
def youngerOf (b : BarrierKind) : MemEvent → Bool
  | .access k _ cca =>
    barrierAffects cca &&
      ((b.youngerLoads && countsAsLoad k) || (b.youngerStores && countsAsStore k))
  | .barrier _ => false

/-- The event is an access. -/
def isAccess : MemEvent → Bool
  | .access _ _ _ => true
  | .barrier _ => false

/-- The event is among the older accesses that are globally performed when the barrier completes
(column C of R197). -/
def doneOf (b : BarrierKind) : MemEvent → Bool
  | .access k _ cca =>
    barrierAffects cca && ((b.doneLoads && countsAsLoad k) || (b.doneStores && countsAsStore k))
  | .barrier _ => false

/-- The event is a barrier of which the test holds. -/
def isBarrier (test : BarrierKind → Bool) : MemEvent → Bool
  | .barrier k => test k
  | .access _ _ _ => false

/-- Some SYNC of which the test holds is among the events and acts: on a strongly ordered system SYNC has
the same effect as a NOP (R73, R198). -/
def barrierActs (cfg : Config) (test : BarrierKind → Bool) (between : List MemEvent) : Bool :=
  !cfg.stronglyOrdered && between.any (isBarrier test)

/-- `a`, the older, is globally performed before `b`, the younger, is performed with respect to any
other agent, `between` being the events of the history between the two: some completion barrier
between orders the pair (R197 column C, R198). -/
def completedBefore (cfg : Config) (a b : MemEvent) (between : List MemEvent) : Bool :=
  barrierActs cfg (fun k => doneOf k a && youngerOf k b) between

/-- `a`, the older, is globally performed before `b`, the younger, is globally performed (R73, R198): on
a strongly ordered system always, of whatever access types and kinds the two are (DESIGN CHOICE, log
16), else where some SYNC between orders the pair. -/
def orderedBefore (cfg : Config) (a b : MemEvent) (between : List MemEvent) : Bool :=
  (cfg.stronglyOrdered && isAccess a && isAccess b) || completedBefore cfg a b between ||
    barrierActs cfg (fun k => olderOf k a && youngerOf k b) between

/-- What R73 and R198 demand of the moments `time i p` at which event number `i` of the history (0 the
oldest) is performed with respect to agent `p`, `agents` being the other agents: a completion barrier
puts the older access before the younger for every two agents, an ordering barrier puts it before the
younger's last agent, a strongly ordered system shows each agent program order and no barrier adds to
that. Nothing else is demanded, and nothing at all where there is no other agent. DESIGN CHOICE (log
16): R72 speaks of the program order of loads and stores of one access type, and R73 does not say
whether strong ordering spans two access types; it is taken over every pair of accesses of the history,
noncoherent ones, CACHE and PREF among them. -/
def Admitted (cfg : Config) (history : List MemEvent) (agents : List Nat) (time : Nat → Nat → Nat) :
    Prop :=
  ∀ (newer between older : List MemEvent) (a b : MemEvent),
    history = newer ++ b :: (between ++ a :: older) →
    let i := older.length
    let j := (between ++ a :: older).length
    (completedBefore cfg a b between = true → ∀ p ∈ agents, ∀ q ∈ agents, time i p < time j q) ∧
    (orderedBefore cfg a b between = true → ∀ p ∈ agents, ∃ q ∈ agents, time i p < time j q) ∧
    (cfg.stronglyOrdered = true → isAccess a = true → isAccess b = true →
      ∀ p ∈ agents, time i p < time j p)

end Sys2Proof.Machine
end

