-- ==== Sys2Proof/Machine/BitField.lean ====
section
/-! DEFINITION. Bit-field extract and insert (44_bitfield.md). -/

namespace Sys2Proof.Machine

/-- EXT ry, rx, pos, size (R200; 90_conflicts.md C2 for the bound). -/
def execExt (ry rx : RegField) (lsb msbd : BitVec 5) (s : State) :
    Host.Outcome State Fault Refusal :=
  if lsb.toNat + msbd.toNat > 31 then .fault (.unpredictable .extField)
  else .next (advance (writeX s ry (extractField (readX s rx) lsb.toNat msbd.toNat)))

/-- INS ry, $0, pos, size (R201; 90_conflicts.md C3 for the zeros). -/
def execInsZero (ry : RegField) (lsb msb : BitVec 5) (s : State) :
    Host.Outcome State Fault Refusal :=
  if lsb.toNat > msb.toNat then .fault (.unpredictable .insField)
  else .next (advance (writeX s ry (insertField (readX s ry) 0#32 lsb.toNat msb.toNat)))

/-- INS ry, rx, pos, size (R202). -/
def execIns (ry rx : RegField) (lsb msb : BitVec 5) (s : State) :
    Host.Outcome State Fault Refusal :=
  if lsb.toNat > msb.toNat then .fault (.unpredictable .insField)
  else .next (advance (writeX s ry (insertField (readX s ry) (readX s rx) lsb.toNat msb.toNat)))

end Sys2Proof.Machine
end

