-- ==== Sys2Proof/Machine/Access.lean ====
section
/-! DEFINITION. The shared shape of the data accesses (R210, R220, R221, R241, R249, R251, R265). -/

namespace Sys2Proof.Machine

/-- The tests of an access up to the access itself, first match wins (R265): alignment to `align`
bytes, translation, Watch where the instruction lists it, Bus Error where it lists it. -/
def openAccess (s : State) (kind : AccessKind) (align : Nat) (watch bus : Bool) (v : Word) :
    Except Stop Access :=
  if v.toNat % align ≠ 0 then raise (.addressError (flavourOf kind) v)
  else
    match translate s kind v with
    | .error t => raise t
    | .ok a =>
      if watch && watchAt s.cfg (flavourOf kind) v then raise .watch
      else if bus && busErrorAt s.cfg (flavourOf kind) a.pAddr then raise .busError
      else .ok a

/-- The bytes can be accessed: all in populated memory (R70, R267), none accessed before with another
access type (R71). -/
def checkBytes (s : State) (a : Access) (bytes : List Nat) : Except Stop Unit :=
  if !(bytes.all (populated s.cfg)) then refuse .dataUnpopulated
  else if typeConflict s bytes a.cca then unpredictable .accessTypes
  else .ok ()

/-- One load (R68): the bytes checked, the access noted (R255) and put into the history (R198). -/
def loadBytes (s : State) (a : Access) (bytes : List Nat) : Except Stop State :=
  match checkBytes s a bytes with
  | .error e => .error e
  | .ok () => .ok (record (noteLoad s a) (.access .load bytes a.cca))

/-- The bytes an access stores can be stored: accessible, and no program text (R78, D20). DESIGN CHOICE
(log 24): the spec gives no order between the access type (R71) and the program text (R78); the access
type is compared first. -/
def checkCells (s : State) (a : Access) (cells : List (Nat × Byte)) : Except Stop Unit :=
  match checkBytes s a (cells.map (·.1)) with
  | .error e => .error e
  | .ok () => if cells.any (fun c => inText s.cfg c.1) then refuse .textWrite else .ok ()

/-- The bytes stored and the store put into the history (R65, R198). -/
def putCells (s : State) (a : Access) (cells : List (Nat × Byte)) : State :=
  record { s with mem := writeBytes s.mem cells } (.access .store (cells.map (·.1)) a.cca)

/-- One store (R68): the bytes checked, written, and the access noted (R255). -/
def storeBytes (s : State) (a : Access) (cells : List (Nat × Byte)) : Except Stop State :=
  match checkCells s a cells with
  | .error e => .error e
  | .ok () => .ok (noteStore (putCells s a cells) a)

/-- A GP-relative load of `n` bytes up to the value (R210): the translated address and the state after
the access. -/
def gpLoad (s : State) (imm : BitVec 16) (n : Nat) : Except Stop (Access × State) :=
  match openAccess s .load n false true (gpAddr s imm) with
  | .error e => .error e
  | .ok a =>
    match loadBytes s a (byteSpan a.pAddr n) with
    | .error e => .error e
    | .ok t => .ok (a, t)

/-- A GP-relative store of the low `n` bytes of `v` (R241). -/
def gpStore (s : State) (imm : BitVec 16) (n : Nat) (v : Word) : Except Stop State :=
  match openAccess s .store n false true (gpAddr s imm) with
  | .error e => .error e
  | .ok a => storeBytes s a (writeCells s.cfg.bigEndian a.pAddr n v)

/-- LWL and LWR up to the merge (R221): `span` gives the bytes touched from the physical address and
its two low bits. -/
def unalignedLoad (s : State) (rb : RegField) (imm : BitVec 9)
    (span : Bool → Nat → Nat → List Nat) : Except Stop (Access × State) :=
  let v := baseAddr s rb imm
  match openAccess s .load 1 true true v with
  | .error e => .error e
  | .ok a =>
    match loadBytes s a (span s.cfg.bigEndian a.pAddr (lowBits v)) with
    | .error e => .error e
    | .ok t => .ok (a, t)

/-- The aligned word that contains a translated address, in the current byte order (R220). -/
def alignedWord (s : State) (a : Access) : Word := memRead4 s (a.pAddr - lowBits a.vAddr)

/-- SWL and SWR (R251): `cells` gives the bytes stored. -/
def unalignedStore (s : State) (rb : RegField) (imm : BitVec 9)
    (cells : Bool → Nat → Nat → Word → List (Nat × Byte)) (y : Word) : Except Stop State :=
  let v := baseAddr s rb imm
  match openAccess s .store 1 true true v with
  | .error e => .error e
  | .ok a => storeBytes s a (cells s.cfg.bigEndian a.pAddr (lowBits v) y)

/-- LL up to the access (R218): alignment, translation, Watch; the location must be synchronizable
(R75, U13). DESIGN CHOICE (log 24): the spec gives this last test no place among the others; it stands
after Watch, before the populated memory (R267) and the access type (R71). -/
def openLinked (s : State) (v : Word) : Except Stop Access :=
  match openAccess s .load 4 true false v with
  | .error e => .error e
  | .ok a => if a.cca.synchronizable then .ok a else unpredictable .notSynchronizable

/-- SC up to the decision of its success (R242): alignment, translation, Watch; an SC that is paired
with the active LL is `Unpredictable` where the location is not synchronizable (U13), any other SC
follows R243. DESIGN CHOICE (log 24): that test stands after Watch, before the populated memory (R267),
the access type (R71) and the program text (R78), as for LL. -/
def openConditional (s : State) (v : Word) : Except Stop Access :=
  match openAccess s .store 4 true false v with
  | .error e => .error e
  | .ok a =>
    if s.llBit && decide (a = s.llAddr) && !a.cca.synchronizable then
      unpredictable .notSynchronizable
    else .ok a

end Sys2Proof.Machine
end

