-- ==== Sys2Proof/Machine/CachePrefetch.lean ====
section
/-! DEFINITION. Cache maintenance and prefetch (41_cache_prefetch.md). -/

namespace Sys2Proof.Machine

/-! ## CACHE -/

/-- The operation code `op[4:2]` (R110, R152). -/
def cacheCode (op : BitVec 5) : BitVec 3 := op.extractLsb' 2 3

/-- The cache `op[1:0]`: I, D, T, S (R110, R152). -/
def cacheSelect (op : BitVec 5) : BitVec 2 := op.extractLsb' 0 2

/-- The geometry of the selected cache, where the platform supplies it (R153). -/
def cacheGeometry (cfg : Config) (op : BitVec 5) : Option CacheGeometry :=
  match (cacheSelect op).toNat with
  | 0 => cfg.iGeometry
  | 1 => cfg.dGeometry
  | 2 => cfg.tGeometry
  | _ => cfg.sGeometry

/-- The operation's address operand must hit in the cache: codes 4 to 7 (R152). -/
def addressOp (op : BitVec 5) : Bool := decide (4 ≤ (cacheCode op).toNat)

/-- The operation invalidates the block it selects: Index (Writeback) Invalidate, Hit Invalidate, and
Hit (Writeback) Invalidate, which on the cache I is Fill (R152). -/
def invalidateOp (op : BitVec 5) : Bool :=
  match (cacheCode op).toNat with
  | 0 => true
  | 4 => true
  | 5 => decide (cacheSelect op ≠ 0#2)
  | _ => false

/-- The line of an address. -/
def lineOf (g : CacheGeometry) (a : Nat) : Nat := a / 2 ^ g.lineLog2

/-- The set an address selects. DESIGN CHOICE (log 14): the spec leaves the index function to the platform
(R153, N15); a supplied geometry is taken to index by the line number modulo the number of sets, and an
operation by index to reach every way of the set. -/
def setOf (g : CacheGeometry) (a : Nat) : Nat := lineOf g a % 2 ^ g.setsLog2

/-- The virtual and the physical addresses of the four bytes of the instruction at the pc. -/
def ownBytes (s : State) : List (Nat × Nat) :=
  (List.range 4).filterMap fun k =>
    let v := s.pc + BitVec.ofNat 32 k
    match translate s .fetch v with
    | .ok a => some (v.toNat, a.pAddr)
    | .error _ => none

/-- The line size of an operation by address on the caches D, T, S whose geometry the platform does not
supply: `CacheLineBytes` where it supplies that, else a single byte (log 14). -/
def hitLine (cfg : Config) : CacheGeometry := ⟨cfg.cacheLineLog2.getD 0, 0, true⟩

/-- The operation may invalidate the line that holds the CACHE instruction (R153, U6): by address, its
line is the instruction's; by index, its set is. Without line size and index function every
invalidation of the cache I may (D16); of another cache an invalidation by address may, by the line
size there is, and one by index is not taken to (R151, log 14). -/
def mayHitOwnLine (s : State) (op : BitVec 5) (a : Access) : Bool :=
  let sameLine (g : CacheGeometry) : Bool :=
    (ownBytes s).any fun own => decide (lineOf g a.pAddr = lineOf g own.2)
  invalidateOp op &&
    (match cacheGeometry s.cfg op with
     | none => decide (cacheSelect op = 0#2) || (addressOp op && sameLine (hitLine s.cfg))
     | some g =>
       if addressOp op then sameLine g
       else (ownBytes s).any fun own =>
         if g.physicalIndex then decide (setOf g a.pAddr = setOf g own.2)
         else decide (setOf g a.vAddr.toNat = setOf g own.1))

/-- Index Load Tag: TagLo and TagHi, and DataLo and DataHi where they exist, become draws (R42, R151). -/
def loadTag (s : State) : State :=
  let s := drawn (writeCp0 s tagLoReg (drawWord s))
  let s := drawn (writeCp0 s tagHiReg (drawWord s))
  let s := if cp0Implemented s.cfg dataLoReg then drawn (writeCp0 s dataLoReg (drawWord s)) else s
  if cp0Implemented s.cfg dataHiReg then drawn (writeCp0 s dataHiReg (drawWord s)) else s

/-- The end of a CACHE operation that completes: it takes its place in the memory history as an access
(R154), and an open read-modify-write sequence is tainted (R77 item 5). -/
def cacheDone (s : State) (a : Access) : State :=
  advance (taintLink (record s (.access .cacheop [a.pAddr] a.cca)))

/-- What the parameter gives an operation: never a Cache Error for Index Load Tag, which then loads the
tag, or for Index Store Tag, which R151 refuses (R150, R152, R269, R302). DESIGN CHOICE (log 14): a
parameter that gives Fetch and Lock another effect than R151's refusal has it complete; no lock is held,
and no later miss is `Undefined` for it (R153, U7). -/
def cacheEffect (cfg : Config) (op : BitVec 5) : CacheEffect :=
  match cfg.cacheOp[op.toFin] with
  | .cacheError =>
    if cacheCode op = 1#3 then .loadTag
    else if cacheCode op = 2#3 then .refuse
    else .cacheError
  | .absent => .absent
  | .refuse => .refuse
  | .notImplemented => .notImplemented
  | .keep => .keep
  | .loadTag => .loadTag
  | .busError => .busError

/-- The uses that R153 excludes, whatever effect the parameter gives. DESIGN CHOICE (log 14): where two
of its rows apply the uncacheable address comes before the instruction's own line. -/
def checkCacheUse (s : State) (op : BitVec 5) (a : Access) : Except Stop Unit :=
  if addressOp op && !a.cca.cached then undefinedUse .cacheUncached
  else if mayHitOwnLine s op a then unpredictable .cacheOwnLine
  else .ok ()

/-- The effect itself, the excluded uses set aside (R151). -/
def cacheFinish (s : State) (a : Access) : CacheEffect → Host.Outcome State Fault Refusal
  | .absent => .refused .cacheOpNotModelled
  | .refuse => .refused .cacheOpNotModelled
  | .notImplemented => .fault (.undefined .cacheCombination)
  | .cacheError => .fault (.trap .cacheError)
  | .busError => .fault (.trap .busError)
  | .keep => .next (cacheDone s a)
  | .loadTag => .next (cacheDone (loadTag s) a)

/-- `CacheOp(op, vAddr, pAddr)` (R151, R153): where the parameter is absent, or the combination not
implemented, no other row of R153 is asked. -/
def cacheOperation (s : State) (op : BitVec 5) (a : Access) : Host.Outcome State Fault Refusal :=
  let e := cacheEffect s.cfg op
  if e = .absent ∨ e = .notImplemented then cacheFinish s a e
  else
    match checkCacheUse s op a with
    | .error x => stopOutcome x
    | .ok () => cacheFinish s a e

/-- CACHE op, immediate(rx) (R150): coprocessor access, translation of load flavour without alignment,
then the operation. It never raises Watch (R268). -/
def execCache (op : BitVec 5) (imm : BitVec 9) (rx : RegField) (s : State) :
    Host.Outcome State Fault Refusal :=
  match requireCop0 s with
  | .error e => stopOutcome e
  | .ok t =>
    match translate t .cacheop (baseAddr t rx imm) with
    | .error e => .fault (.trap e)
    | .ok a => cacheOperation t op a

/-! ## PREF -/

/-- Every byte of the line becomes zero, one store by this processor (R156): the bytes are checked and
put into the history like any store's (R71, R198), and an open sequence sees a store that lies in its
block if one of the bytes does. -/
def zeroLine (s : State) (a : Access) (cells : List (Nat × Byte)) : Except Stop State :=
  match checkCells s a cells with
  | .error e => .error e
  | .ok () =>
    .ok (noteStoreIn (putCells s a cells) (cells.any fun c => inLinkBlock s c.1) a.cca.coherent)

/-- The aligned line of `n` bytes that holds the address, all zero (R156). -/
def lineCells (n p : Nat) : List (Nat × Byte) := (byteSpan (p / n * n) n).map fun q => (q, 0#8)

/-- PrepareForStore (R156): a draw says whether the line is already in the cache; on a miss the line is
zeroed. -/
def prepareForStore (s : State) (a : Access) : Except Stop State :=
  match s.cfg.cacheLineLog2 with
  | none => refuse .prefNoLineSize
  | some k =>
    if drawBool s then .ok (drawn s)
    else zeroLine (drawn s) a (lineCells (2 ^ k) a.pAddr)

/-- `Prefetch` (R155, R158): a cached access takes its place in the memory history; no hint but 30 has
a visible effect. -/
def prefetch (s : State) (hint : BitVec 5) (a : Access) : Except Stop State :=
  if a.cca.cached then
    if hint = 30#5 then
      match prepareForStore s a with
      | .error e => .error e
      | .ok t => .ok (record t (.access .pref [a.pAddr] a.cca))
    else .ok (record s (.access .pref [a.pAddr] a.cca))
  else .ok s

/-- PREF hint, immediate(rx) (R155 to R157): Reserved Instruction for hints 24 to 31 from Release 6; no
addressing exception ever. -/
def execPref (hint : BitVec 5) (imm : BitVec 9) (rx : RegField) (s : State) :
    Host.Outcome State Fault Refusal :=
  if s.cfg.archRevision ≥ 6 ∧ 24 ≤ hint.toNat then .fault (.trap .reservedInstruction)
  else
    match translate s .pref (baseAddr s rx imm) with
    | .error _ => .next (advance (taintLink s))
    | .ok a =>
      match prefetch s hint a with
      | .error e => stopOutcome e
      | .ok t => .next (advance (taintLink t))

end Sys2Proof.Machine
end

