-- ==== Sys2Proof/Machine/ConditionalMoves.lean ====
section
/-! DEFINITION. The conditional moves (46_conditional_moves.md). -/

namespace Sys2Proof.Machine

/-- The common shape (R238): where the condition holds the destination takes the value, else nothing is
written; the pc moves on in either case. -/
def condMove (s : State) (cond : Bool) (rx : RegField) (v : Word) : State :=
  advance (if cond then writeX s rx v else s)

/-- MOVN rx, $0, ry (R230; 90_conflicts.md C5). -/
def execMovnZero (rx ry : RegField) (s : State) : Host.Outcome State Fault Refusal :=
  .next (condMove s (readX s ry ≠ 0#32) rx 0#32)

/-- MOVN rx, rb, ry (R231). -/
def execMovn (rx rb ry : RegField) (s : State) : Host.Outcome State Fault Refusal :=
  .next (condMove s (readX s ry ≠ 0#32) rx (readX s rb))

/-- MOVTN rx, $0 (R232). -/
def execMovtnZero (rx : RegField) (s : State) : Host.Outcome State Fault Refusal :=
  .next (condMove s (readGpr s tReg ≠ 0#32) rx 0#32)

/-- MOVTN rx, rb (R233). -/
def execMovtn (rx rb : RegField) (s : State) : Host.Outcome State Fault Refusal :=
  .next (condMove s (readGpr s tReg ≠ 0#32) rx (readX s rb))

/-- MOVTZ rx, $0 (R234). -/
def execMovtzZero (rx : RegField) (s : State) : Host.Outcome State Fault Refusal :=
  .next (condMove s (readGpr s tReg = 0#32) rx 0#32)

/-- MOVTZ rx, rb (R235). -/
def execMovtz (rx rb : RegField) (s : State) : Host.Outcome State Fault Refusal :=
  .next (condMove s (readGpr s tReg = 0#32) rx (readX s rb))

/-- MOVZ rx, $0, ry (R236). -/
def execMovzZero (rx ry : RegField) (s : State) : Host.Outcome State Fault Refusal :=
  .next (condMove s (readX s ry = 0#32) rx 0#32)

/-- MOVZ rx, rb, ry (R237). -/
def execMovz (rx rb ry : RegField) (s : State) : Host.Outcome State Fault Refusal :=
  .next (condMove s (readX s ry = 0#32) rx (readX s rb))

end Sys2Proof.Machine
end

