-- ==== Sys2Proof/Machine/Cp0System.lean ====
section
/-! DEFINITION. Coprocessor 0 and system instructions (42_cp0_system.md). -/

namespace Sys2Proof.Machine

/-- The tests of DI and EI (R160, R161, R166, R167), then the effect on the state they leave. -/
def withCop0 (s : State) (k : State → State) : Host.Outcome State Fault Refusal :=
  match requireCop0 s with
  | .error e => stopOutcome e
  | .ok t => .next (advance (k t))

/-- The tests of DMT, EMT, DVPE and EVPE, coprocessor access first (R172, R265), then the effect. -/
def withMT (s : State) (k : State → State) : Host.Outcome State Fault Refusal :=
  match requireCop0 s with
  | .error e => stopOutcome e
  | .ok t =>
    match requireMT t with
    | .error e => stopOutcome e
    | .ok u => .next (advance (k u))

/-- The copy of the `ry` forms: `x[XLat(ry)] <- data`, the register as it reads (R172, R173). -/
def copyOld (s : State) (ry : RegField) (r : Cp0Reg) : State :=
  writeX (cp0ReadState s r) ry (cp0Value s r)

/-- DVPE and EVPE: `EVP` changes only on a Master VPE; the hazard entry is made in any case (R172,
R164, R170; 90_conflicts.md C1). -/
def changeEvp (s : State) (v : Bool) : State :=
  if masterVpe s then changeField s .mvpControlEVP v
  else addHazard s .mvpControlEVP (fieldBit s .mvpControlEVP)

/-- DI (R160). -/
def execDi (s : State) : Host.Outcome State Fault Refusal :=
  withCop0 s fun t => changeField t .statusIE false

/-- DI ry (R161). -/
def execDiRy (ry : RegField) (s : State) : Host.Outcome State Fault Refusal :=
  withCop0 s fun t => changeField (copyOld t ry statusReg) .statusIE false

/-- EI (R166). -/
def execEi (s : State) : Host.Outcome State Fault Refusal :=
  withCop0 s fun t => changeField t .statusIE true

/-- EI ry (R167). -/
def execEiRy (ry : RegField) (s : State) : Host.Outcome State Fault Refusal :=
  withCop0 s fun t => changeField (copyOld t ry statusReg) .statusIE true

/-- DMT (R162). -/
def execDmt (s : State) : Host.Outcome State Fault Refusal :=
  withMT s fun t => changeField t .vpeControlTE false

/-- DMT ry (R163). -/
def execDmtRy (ry : RegField) (s : State) : Host.Outcome State Fault Refusal :=
  withMT s fun t => changeField (copyOld t ry vpeControlReg) .vpeControlTE false

/-- EMT (R168). -/
def execEmt (s : State) : Host.Outcome State Fault Refusal :=
  withMT s fun t => changeField t .vpeControlTE true

/-- EMT ry (R169). -/
def execEmtRy (ry : RegField) (s : State) : Host.Outcome State Fault Refusal :=
  withMT s fun t => changeField (copyOld t ry vpeControlReg) .vpeControlTE true

/-- DVPE (R164). -/
def execDvpe (s : State) : Host.Outcome State Fault Refusal :=
  withMT s fun t => changeEvp t false

/-- DVPE ry (R165): the register is copied whether or not the VPE is a Master VPE. -/
def execDvpeRy (ry : RegField) (s : State) : Host.Outcome State Fault Refusal :=
  withMT s fun t => changeEvp (copyOld t ry mvpControlReg) false

/-- EVPE (R170). -/
def execEvpe (s : State) : Host.Outcome State Fault Refusal :=
  withMT s fun t => changeEvp t true

/-- EVPE ry (R171). -/
def execEvpeRy (ry : RegField) (s : State) : Host.Outcome State Fault Refusal :=
  withMT s fun t => changeEvp (copyOld t ry mvpControlReg) true

/-- MFC0 ry, r32, sel (R174). -/
def execMfc0 (ry : RegField) (r32 : BitVec 5) (sel : BitVec 3) (s : State) :
    Host.Outcome State Fault Refusal :=
  match requireCop0 s with
  | .error e => stopOutcome e
  | .ok t =>
    if cp0Implemented t.cfg ⟨r32, sel⟩ then .next (advance (copyOld t ry ⟨r32, sel⟩))
    else if t.cfg.archRevision ≥ 6 then .next (advance (writeX t ry 0#32))
    else .fault (.undefined .mfc0NoRegister)

/-- MTC0 ry, r32, sel (R175, R177). The `Config5.MVH` branch writes bits 63:32 only, which do not exist
here (R176). -/
def execMtc0 (ry : RegField) (r32 : BitVec 5) (sel : BitVec 3) (s : State) :
    Host.Outcome State Fault Refusal :=
  match requireCop0 s with
  | .error e => stopOutcome e
  | .ok t =>
    if cp0Implemented t.cfg ⟨r32, sel⟩ then
      .next (advance (mtc0Write t ⟨r32, sel⟩ (readX t ry)))
    else .fault (.undefined .mtc0NoRegister)

/-- The hardware register exists (R44, R178). -/
def hwrImplemented (cfg : Config) (hwr : BitVec 5) : Bool :=
  match hwr.toNat with
  | 0 | 1 | 2 | 3 | 5 => true
  | 29 => cfg.hwr29
  | 30 => cfg.hwr30
  | 31 => cfg.hwr31
  | _ => false

/-- The `HWREna` bit of the register is set: bit `n` for register `n` (R35). -/
def hwrEnabled (s : State) (hwr : BitVec 5) : Bool := (readCp0 s hwrEnaReg).getLsbD hwr.toNat

/-- The value of a hardware register (R44, R178): Count, 30 and 31 are draws. -/
def hwrValue (s : State) (hwr : BitVec 5) : Word :=
  match hwr.toNat with
  | 0 => (cpuNum s).zeroExtend 32
  | 1 => s.cfg.synciStep
  | 2 => drawWord s
  | 3 => s.cfg.countResolution
  | 5 => if config5XNP s then 1#32 else 0#32
  | 29 => readCp0 s userLocalReg
  | _ => drawWord s

/-- The state after that read: one draw for registers 2, 30 and 31. -/
def hwrState (s : State) (hwr : BitVec 5) : State :=
  match hwr.toNat with
  | 2 | 30 | 31 => drawn s
  | _ => s

/-- RDHWR ry, HWR (R178). The two causes of Reserved Instruction cannot be told apart. The `HWREna` bit
is tested before `Cop0Enabled`, so that a draw is made only where it decides. -/
def execRdhwr (ry : RegField) (hwr : BitVec 5) (s : State) : Host.Outcome State Fault Refusal :=
  if !hwrImplemented s.cfg hwr then .fault (.trap .reservedInstruction)
  else if hwrEnabled s hwr then
    .next (advance (writeX (hwrState s hwr) ry (hwrValue s hwr)))
  else if cop0Enabled s then
    .next (advance (writeX (hwrState (cop0State s) hwr) ry (hwrValue (cop0State s) hwr)))
  else .fault (.trap .reservedInstruction)

end Sys2Proof.Machine
end

