-- ==== Sys2Proof/Machine/Loads.lean ====
section
/-! DEFINITION. The loads (45_loads.md). -/

namespace Sys2Proof.Machine

/-- The end of a load: the destination written from the access, the pc moved on. -/
def loadResult (rx : RegField) (value : Access → Word) :
    Except Stop (Access × State) → Host.Outcome State Fault Refusal
  | .error e => stopOutcome e
  | .ok (a, t) => .next (advance (writeX t rx (value a)))

/-- LB rx, immediate(gp) (R210, R212). -/
def execLb (rx : RegField) (imm : BitVec 16) (s : State) : Host.Outcome State Fault Refusal :=
  loadResult rx (fun a => (memRead1 s a.pAddr).signExtend 32) (gpLoad s imm 1)

/-- LBU rx, immediate(gp) (R210, R213). -/
def execLbu (rx : RegField) (imm : BitVec 16) (s : State) : Host.Outcome State Fault Refusal :=
  loadResult rx (fun a => (memRead1 s a.pAddr).zeroExtend 32) (gpLoad s imm 1)

/-- LH rx, immediate(gp) (R210, R214). -/
def execLh (rx : RegField) (imm : BitVec 16) (s : State) : Host.Outcome State Fault Refusal :=
  loadResult rx (fun a => (memRead2 s a.pAddr).signExtend 32) (gpLoad s imm 2)

/-- LHU rx, immediate(gp) (R210, R215). -/
def execLhu (rx : RegField) (imm : BitVec 16) (s : State) : Host.Outcome State Fault Refusal :=
  loadResult rx (fun a => (memRead2 s a.pAddr).zeroExtend 32) (gpLoad s imm 2)

/-- LW rx, immediate(gp) (R210, R216). -/
def execLw (rx : RegField) (imm : BitVec 16) (s : State) : Host.Outcome State Fault Refusal :=
  loadResult rx (fun a => memRead4 s a.pAddr) (gpLoad s imm 4)

/-- LL rx, immediate(rb) (R218): a load of a word that begins a read-modify-write sequence. It is no
event of R255: it replaces any sequence that was active. -/
def execLl (rx : RegField) (imm : BitVec 9) (rb : RegField) (s : State) :
    Host.Outcome State Fault Refusal :=
  match openLinked s (baseAddr s rb imm) with
  | .error e => stopOutcome e
  | .ok a =>
    match checkBytes s a (byteSpan a.pAddr 4) with
    | .error e => stopOutcome e
    | .ok () =>
      let t := setLink (record s (.access .load (byteSpan a.pAddr 4) a.cca)) a
      .next (advance (writeX t rx (memRead4 s a.pAddr)))

/-- LWL rx, immediate(rb) (R220, R221, R222). -/
def execLwl (rx : RegField) (imm : BitVec 9) (rb : RegField) (s : State) :
    Host.Outcome State Fault Refusal :=
  loadResult rx
    (fun a => mergeLeft (laneByte s.cfg.bigEndian a.vAddr) (alignedWord s a) (readX s rx))
    (unalignedLoad s rb imm leftSpan)

/-- LWR rx, immediate(rb) (R220, R221, R224; 90_conflicts.md C6). -/
def execLwr (rx : RegField) (imm : BitVec 9) (rb : RegField) (s : State) :
    Host.Outcome State Fault Refusal :=
  loadResult rx
    (fun a => mergeRight (laneByte s.cfg.bigEndian a.vAddr) (alignedWord s a) (readX s rx))
    (unalignedLoad s rb imm rightSpan)

end Sys2Proof.Machine
end

