-- ==== Sys2Proof/Machine/Stores.lean ====
section
/-! DEFINITION. The stores (47_stores.md). -/

namespace Sys2Proof.Machine

/-- The end of a store that completes: the pc moved on. -/
def storeResult : Except Stop State → Host.Outcome State Fault Refusal
  | .error e => stopOutcome e
  | .ok t => .next (advance t)

/-- SB rx, immediate(gp) (R240, R241). -/
def execSb (rx : RegField) (imm : BitVec 16) (s : State) : Host.Outcome State Fault Refusal :=
  storeResult (gpStore s imm 1 (readX s rx))

/-- SH rx, immediate(gp) (R241, R246). -/
def execSh (rx : RegField) (imm : BitVec 16) (s : State) : Host.Outcome State Fault Refusal :=
  storeResult (gpStore s imm 2 (readX s rx))

/-- SW rx, immediate(gp) (R241, R248). -/
def execSw (rx : RegField) (imm : BitVec 16) (s : State) : Host.Outcome State Fault Refusal :=
  storeResult (gpStore s imm 4 (readX s rx))

/-- The bytes SC stores when it succeeds: the source register before it takes the result (R242). -/
def scCells (s : State) (rx : RegField) (a : Access) : List (Nat × Byte) :=
  writeCells s.cfg.bigEndian a.pAddr 4 (readX s rx)

/-- SC rx, immediate(rb) (R242, R243). The store of a successful SC is checked and put into the history
like any other; it is no event of R255. -/
def execSc (rx : RegField) (imm : BitVec 9) (rb : RegField) (s : State) :
    Host.Outcome State Fault Refusal :=
  match openConditional s (baseAddr s rb imm) with
  | .error e => stopOutcome e
  | .ok a =>
    if scSucceeds s a then
      match checkCells s a (scCells s rx a) with
      | .error e => stopOutcome e
      | .ok () =>
        .next (advance (clearLink (writeX (putCells (scState s a) a (scCells s rx a)) rx 1#32)))
    else .next (advance (clearLink (writeX (scState s a) rx 0#32)))

/-- SWL rx, immediate(rb) (R249, R250, R251). -/
def execSwl (rx : RegField) (imm : BitVec 9) (rb : RegField) (s : State) :
    Host.Outcome State Fault Refusal :=
  storeResult (unalignedStore s rb imm leftCells (readX s rx))

/-- SWR rx, immediate(rb) (R249, R251, R252). -/
def execSwr (rx : RegField) (imm : BitVec 9) (rb : RegField) (s : State) :
    Host.Outcome State Fault Refusal :=
  storeResult (unalignedStore s rb imm rightCells (readX s rx))

end Sys2Proof.Machine
end

