-- ==== Sys2Proof/Machine/Dispatch.lean ====
section
/-! DEFINITION. The one dispatch of the fifty forms to their meanings. -/

namespace Sys2Proof.Machine

def exec (i : Instr) (s : State) : Host.Outcome State Fault Refusal :=
  match i with
  | .addiuGp rx imm => Sys2Proof.Machine.execAddiuGp rx imm s
  | .andi rx imm => Sys2Proof.Machine.execAndi rx imm s
  | .cache op imm rx => Sys2Proof.Machine.execCache op imm rx s
  | .di => Sys2Proof.Machine.execDi s
  | .diRy ry => Sys2Proof.Machine.execDiRy ry s
  | .dmt => Sys2Proof.Machine.execDmt s
  | .dmtRy ry => Sys2Proof.Machine.execDmtRy ry s
  | .dvpe => Sys2Proof.Machine.execDvpe s
  | .dvpeRy ry => Sys2Proof.Machine.execDvpeRy ry s
  | .ehb => Sys2Proof.Machine.execEhb s
  | .ei => Sys2Proof.Machine.execEi s
  | .eiRy ry => Sys2Proof.Machine.execEiRy ry s
  | .emt => Sys2Proof.Machine.execEmt s
  | .emtRy ry => Sys2Proof.Machine.execEmtRy ry s
  | .evpe => Sys2Proof.Machine.execEvpe s
  | .evpeRy ry => Sys2Proof.Machine.execEvpeRy ry s
  | .ext ry rx lsb msbd => Sys2Proof.Machine.execExt ry rx lsb msbd s
  | .insZero ry lsb msb => Sys2Proof.Machine.execInsZero ry lsb msb s
  | .ins ry rx lsb msb => Sys2Proof.Machine.execIns ry rx lsb msb s
  | .lb rx imm => Sys2Proof.Machine.execLb rx imm s
  | .lbu rx imm => Sys2Proof.Machine.execLbu rx imm s
  | .lh rx imm => Sys2Proof.Machine.execLh rx imm s
  | .lhu rx imm => Sys2Proof.Machine.execLhu rx imm s
  | .ll rx imm rb => Sys2Proof.Machine.execLl rx imm rb s
  | .lui rx imm => Sys2Proof.Machine.execLui rx imm s
  | .lwl rx imm rb => Sys2Proof.Machine.execLwl rx imm rb s
  | .lwr rx imm rb => Sys2Proof.Machine.execLwr rx imm rb s
  | .lw rx imm => Sys2Proof.Machine.execLw rx imm s
  | .mfc0 ry r32 sel => Sys2Proof.Machine.execMfc0 ry r32 sel s
  | .movnZero rx ry => Sys2Proof.Machine.execMovnZero rx ry s
  | .movn rx rb ry => Sys2Proof.Machine.execMovn rx rb ry s
  | .movtnZero rx => Sys2Proof.Machine.execMovtnZero rx s
  | .movtn rx rb => Sys2Proof.Machine.execMovtn rx rb s
  | .movtzZero rx => Sys2Proof.Machine.execMovtzZero rx s
  | .movtz rx rb => Sys2Proof.Machine.execMovtz rx rb s
  | .movzZero rx ry => Sys2Proof.Machine.execMovzZero rx ry s
  | .movz rx rb ry => Sys2Proof.Machine.execMovz rx rb ry s
  | .mtc0 ry r32 sel => Sys2Proof.Machine.execMtc0 ry r32 sel s
  | .ori rx imm => Sys2Proof.Machine.execOri rx imm s
  | .pause => Sys2Proof.Machine.execPause s
  | .pref hint imm rx => Sys2Proof.Machine.execPref hint imm rx s
  | .rdhwr ry hwr => Sys2Proof.Machine.execRdhwr ry hwr s
  | .sb rx imm => Sys2Proof.Machine.execSb rx imm s
  | .sc rx imm rb => Sys2Proof.Machine.execSc rx imm rb s
  | .sh rx imm => Sys2Proof.Machine.execSh rx imm s
  | .swl rx imm rb => Sys2Proof.Machine.execSwl rx imm rb s
  | .swr rx imm rb => Sys2Proof.Machine.execSwr rx imm rb s
  | .sw rx imm => Sys2Proof.Machine.execSw rx imm s
  | .sync stype => Sys2Proof.Machine.execSync stype s
  | .xori rx imm => Sys2Proof.Machine.execXori rx imm s

end Sys2Proof.Machine
end

