-- ==== Sys2Proof/Machine/Fetch.lean ====
section
/-! DEFINITION. What surrounds the execution of one instruction: the events of other agents (R287),
the fetch (R28, R80, R100), and the bookkeeping of the instructions executed since an LL (R256). -/

namespace Sys2Proof.Machine

/-! ## Other agents -/

/-- The bytes an agent's store writes. -/
def eventCells (p : Nat) (bytes : List Byte) : List (Nat × Byte) :=
  (List.range bytes.length).map fun k => (p + k, bytes.getD k 0#8)

/-- A store of another agent (R287): it clears `LLbit` where one of its bytes lies in the linked block
(R76 item 3); into program text or outside the populated memory it is refused (R78, D4). -/
def eventStore (s : State) (cells : List (Nat × Byte)) : Except Stop State :=
  if !(cells.all fun c => populated s.cfg c.1) then refuse .dataUnpopulated
  else if cells.any fun c => inText s.cfg c.1 then refuse .textWrite
  else
    .ok { s with
      mem := writeBytes s.mem cells
      llBit := s.llBit && !(cells.any fun c => inLinkBlock s c.1) }

/-- One event of another agent (R76 item 3, R77 item 5). -/
def applyEvent (s : State) : EnvEvent → Except Stop State
  | .store p bytes => eventStore s (eventCells p bytes)
  | .cacheOp => .ok (taintLink s)

/-- The events of one gap between two instructions, in their order. -/
def applyEvents : State → List EnvEvent → Except Stop State
  | s, [] => .ok s
  | s, e :: es =>
    match applyEvent s e with
    | .error x => .error x
    | .ok t => applyEvents t es

/-- What the other agents do before the next instruction: the head of the queue, which it leaves. -/
def deliver (s : State) : Except Stop State :=
  match s.env with
  | [] => .ok s
  | es :: rest => applyEvents { s with env := rest } es

/-! ## Fetch -/

/-- The two bytes of the halfword at a virtual address, from program text only (R78, log 7). -/
def fetchHalf (s : State) (v : Word) : Except Stop (List Byte) :=
  match translate s .fetch v with
  | .error e => refuse (.fetchTranslation e)
  | .ok a =>
    if !((byteSpan a.pAddr 2).all (populated s.cfg)) then refuse .fetchUnpopulated
    else if !((byteSpan a.pAddr 2).all (inText s.cfg)) then refuse .fetchOutsideText
    else .ok ((byteSpan a.pAddr 2).map (readByte s.mem))

/-- The halfword begins an instruction of this spec (R100). -/
def startsExtended (bigEndian : Bool) : List Byte → Bool
  | b0 :: b1 :: _ => decide ((halfOfBytes bigEndian b0 b1).extractLsb' 11 5 = 0b11110#5)
  | _ => false

/-- The instruction from its bytes, refused by name where they are none (R113). -/
def decodeFetched (s : State) (bytes : List Byte) : Except Stop Instr :=
  match decodeBytes s.cfg.bigEndian bytes with
  | .error e => refuse (.notInSpec e)
  | .ok i => .ok i

/-- The fetch at `pc` (R28, R80, R100): an odd pc is refused; the second halfword is fetched only when
the first begins with EXTEND. -/
def fetch (s : State) : Except Stop Instr :=
  if s.pc.toNat % 2 = 1 then refuse .fetchOddPc
  else
    match fetchHalf s s.pc with
    | .error e => .error e
    | .ok h0 =>
      if !(startsExtended s.cfg.bigEndian h0) then decodeFetched s h0
      else if s.pc = 0xFFFFFFFE#32 then refuse .fetchStraddle
      else
        match fetchHalf s (s.pc + 2#32) with
        | .error e => .error e
        | .ok h1 => decodeFetched s (h0 ++ h1)

/-- The lower of two addresses. -/
def lower (a b : Word) : Word := if a.toNat ≤ b.toNat then a else b

/-- The higher of two addresses. -/
def higher (a b : Word) : Word := if a.toNat ≤ b.toNat then b else a

/-- `LLlo` and `LLhi` while `LLbit = 1`: the instruction about to run occupies `pc .. pc+3` (R256). -/
def noteFetch (s : State) : State :=
  if s.llBit then
    { s with llLo := lower s.llLo s.pc, llHi := higher s.llHi (s.pc + 3#32) }
  else s

/-! ## Placing an instruction for the next step -/

/-- The physical address a fetch at a virtual address reads; where it does not translate, the address
itself. -/
def fetchPhys (s : State) (v : Word) : Nat :=
  match translate s .fetch v with
  | .ok a => a.pAddr
  | .error _ => v.toNat

/-- The four bytes of an instruction word at the physical addresses of `pc .. pc+3` (R80). -/
def wordCells (s : State) (w : Word) : List (Nat × Byte) :=
  let p := fetchPhys s s.pc
  let q := fetchPhys s (s.pc + 2#32)
  [p, p + 1, q, q + 1].zip (bytesOfWord s.cfg.bigEndian w)

/-- The bytes at `pc .. pc+3` made populated program text. -/
def openText (s : State) : Config :=
  let regions : List Region := [⟨fetchPhys s s.pc, 2⟩, ⟨fetchPhys s (s.pc + 2#32), 2⟩]
  { s.cfg with populated := regions ++ s.cfg.populated, text := regions ++ s.cfg.text }

/-- The state with one instruction word loaded where the next step fetches it, and no event and no
PAUSE before it. -/
def loadWord (s : State) (w : Word) : State :=
  { s with
    mem := writeBytes s.mem (wordCells s w)
    cfg := openText s
    waiting := false
    env := [] :: s.env.tail }

end Sys2Proof.Machine
end

