-- ==== Sys2Proof/Machine/Step.lean ====
section
/-! DEFINITION. One step of the machine, and the placing of one instruction where it fetches. -/

namespace Sys2Proof.Machine

/-- One step: the events of other agents that precede the instruction (R287); a blocked stream polls
its PAUSE (R192); else the instruction at `pc` is fetched and executed. Without MIPS16e2 every form is
`Unpredictable` (R2). -/
def step (s : State) : Host.Outcome State Fault Refusal :=
  match deliver s with
  | .error e => stopOutcome e
  | .ok t =>
    if t.waiting then .next (pollPause t)
    else
      match fetch t with
      | .error e => stopOutcome e
      | .ok i =>
        if t.cfg.hasMips16e2 then exec i (noteFetch t)
        else .fault (.unpredictable .noMips16e2)

/-- The state with the instruction whose bits are `w`, numbered as the opcode table numbers them,
where the next step fetches it (log 8). -/
def State.withFetchWord (s : State) (nbits w : Nat) : State := loadWord s (tableWord nbits w)

end Sys2Proof.Machine
end

