-- ==== Sys2Proof/Safety.lean ====
section
/-! DEFINITION. The terms the statements use: the invariant of the machine, what an instruction of
each shape changes, the conditions of a data access, and the exception lists of R261. -/

namespace Sys2Proof.Machine

/-! ## The invariant -/

/-- The bytes of a load or a store event, with its access type. -/
def dataAccess : MemEvent → Option (List Nat × Cca)
  | .access .load bytes cca => some (bytes, cca)
  | .access .store bytes cca => some (bytes, cca)
  | .access .cacheop _ _ => none
  | .access .pref _ _ => none
  | .access .fetch _ _ => none
  | .barrier _ => none

/-- Two events agree: a byte that both access as data is accessed with one access type (R71). -/
def sameType (e f : MemEvent) : Prop :=
  ∀ bs c ds d q, dataAccess e = some (bs, c) → dataAccess f = some (ds, d) → q ∈ bs → q ∈ ds → c = d

/-- The event touches no program text if it is a store (R78). -/
def sparesText (cfg : Config) : MemEvent → Prop
  | .access .store bytes _ => ∀ q ∈ bytes, inText cfg q = false
  | .access .load _ _ => True
  | .access .cacheop _ _ => True
  | .access .pref _ _ => True
  | .access .fetch _ _ => True
  | .barrier _ => True

/-- The invariant of every state a run can reach from a state that has it. -/
structure Inv (s : State) : Prop where
  /-- memory has its one canonical form -/
  memory : Memory.wf s.mem = true
  /-- the pc is even (R28) -/
  pcEven : s.pc.toNat % 2 = 0
  /-- the cell of register 0 stays zero (R21) -/
  zero : s.gpr[0] = 0#32
  /-- no instruction of this spec creates a delay slot (R193) -/
  noDelaySlot : s.inDelaySlot = false
  /-- `HazardPending` is a set (R48) -/
  hazardSet : s.hazards.Nodup
  /-- the linked address is that of an aligned, synchronizable word (R67, R218) -/
  link : s.llBit = true →
    s.llAddr.vAddr.toNat % 4 = 0 ∧ s.llAddr.pAddr % 4 = 0 ∧ s.llAddr.cca.synchronizable = true
  /-- a link was opened by an LL (R46) -/
  seen : s.llBit = true → s.llSeen = true
  /-- the instructions executed since the LL lie between `LLlo` and `LLhi` (R256) -/
  window : s.llBit = true → s.llLo.toNat ≤ s.llHi.toNat
  /-- no byte has been accessed as data with two access types (R71) -/
  oneType : s.history.Pairwise sameType
  /-- no store of this processor has touched program text (R78) -/
  text : ∀ e ∈ s.history, sparesText s.cfg e

/-! ## What an instruction changes -/

/-- Register `d` holds `v` after a write of `v`: a write to register 0 is discarded and it reads as zero
(R21). -/
def Holds (t : State) (d : RegNum) (v : Word) : Prop := readGpr t d = if d = 0 then 0#32 else v

/-- `t` is `s` with register `d` holding `v` and the pc moved on by 4, and nothing else changed. -/
structure WritesRegister (s t : State) (d : RegNum) (v : Word) : Prop where
  pc : t.pc = s.pc + 4#32
  value : Holds t d v
  others : ∀ r, r ≠ d → readGpr t r = readGpr s r
  memory : ∀ a, readByte t.mem a = readByte s.mem a
  rest : t = { s with gpr := t.gpr, pc := t.pc }

/-- What a load of this processor does to the link state (R255). -/
structure LoadLink (s t : State) (a : Access) : Prop where
  bit : t.llBit = s.llBit
  /-- the taint set by a load outside the block, or inside it where `Config5LLB = 0` -/
  taint : t.llTaint = true ↔
    s.llTaint = true ∨ (s.llBit = true ∧ ¬ (inLinkBlock s a.pAddr = true ∧ config5LLB s = true))

/-- `t` is `s` after an ordinary load of `bytes` at `a`: register `d` holds `v`, the pc has moved on,
the link state has seen a load, the access is in the history; nothing else changed. -/
structure LoadsRegister (s t : State) (d : RegNum) (v : Word) (a : Access) (bytes : List Nat) :
    Prop where
  pc : t.pc = s.pc + 4#32
  value : Holds t d v
  others : ∀ r, r ≠ d → readGpr t r = readGpr s r
  memory : ∀ q, readByte t.mem q = readByte s.mem q
  link : LoadLink s t a
  history : t.history = .access .load bytes a.cca :: s.history
  rest : t = { s with gpr := t.gpr, pc := t.pc, llTaint := t.llTaint, history := t.history }

/-- What a store of this processor does to the link state (R255). -/
structure StoreLink (s t : State) (a : Access) : Prop where
  /-- cleared by a coherent store to the block where `Config5LLB = 1` -/
  bit : t.llBit = true ↔
    s.llBit = true ∧ ¬ (inLinkBlock s a.pAddr = true ∧ a.cca.coherent = true ∧ config5LLB s = true)
  /-- set by every other store of an open sequence -/
  taint : t.llTaint = true ↔ s.llTaint = true ∨ t.llBit = true

/-- `t` is `s` after an ordinary store of `cells` at `a`: those bytes hold the stored values, every
other byte and every register is as before, the pc has moved on, the link state has seen a store, the
access is in the history; nothing else changed. -/
structure Stores (s t : State) (a : Access) (cells : List (Nat × Byte)) : Prop where
  pc : t.pc = s.pc + 4#32
  registers : ∀ r, readGpr t r = readGpr s r
  stored : ∀ c ∈ cells, readByte t.mem c.1 = c.2
  others : ∀ q, q ∉ cells.map (·.1) → readByte t.mem q = readByte s.mem q
  link : StoreLink s t a
  history : t.history = .access .store (cells.map (·.1)) a.cca :: s.history
  rest : t = { s with mem := t.mem, pc := t.pc, llBit := t.llBit, llTaint := t.llTaint
                      history := t.history }

/-- No coprocessor 0 register but `r` differs. -/
def otherCp0 (s t : State) (r : Cp0Reg) : Prop := ∀ q, q ≠ r → readCp0 t q = readCp0 s q

/-- The word of `x[XLat(rx)]` as the four bytes an SC stores at `p`. -/
def scWord (s : State) (rx : RegField) (p : Nat) : List (Nat × Byte) :=
  let y := readGpr s (xLat s.cfg rx)
  if s.cfg.bigEndian then
    [(p, y.extractLsb' 24 8), (p + 1, y.extractLsb' 16 8),
     (p + 2, y.extractLsb' 8 8), (p + 3, y.extractLsb' 0 8)]
  else
    [(p, y.extractLsb' 0 8), (p + 1, y.extractLsb' 8 8),
     (p + 2, y.extractLsb' 16 8), (p + 3, y.extractLsb' 24 8)]

/-- `t` is `s` after an SC that succeeds: the word stored, 1 in the register, `LLbit` cleared. The
number of draws is not spoken of. -/
structure ScSuccess (s t : State) (rx : RegField) (a : Access) : Prop where
  pc : t.pc = s.pc + 4#32
  result : Holds t (xLat s.cfg rx) 1#32
  registers : ∀ r, r ≠ xLat s.cfg rx → readGpr t r = readGpr s r
  stored : ∀ c ∈ scWord s rx a.pAddr, readByte t.mem c.1 = c.2
  others : ∀ q, q ∉ (scWord s rx a.pAddr).map (·.1) → readByte t.mem q = readByte s.mem q
  bit : t.llBit = false
  history : t.history = .access .store ((scWord s rx a.pAddr).map (·.1)) a.cca :: s.history
  rest : t = { s with gpr := t.gpr, pc := t.pc, mem := t.mem, llBit := t.llBit
                      history := t.history, draws := t.draws }

/-- `t` is `s` after an SC that fails: 0 in the register, `LLbit` cleared, memory as it was. -/
structure ScFailure (s t : State) (rx : RegField) : Prop where
  pc : t.pc = s.pc + 4#32
  result : Holds t (xLat s.cfg rx) 0#32
  registers : ∀ r, r ≠ xLat s.cfg rx → readGpr t r = readGpr s r
  memory : ∀ q, readByte t.mem q = readByte s.mem q
  bit : t.llBit = false
  rest : t = { s with gpr := t.gpr, pc := t.pc, llBit := t.llBit, draws := t.draws }

/-- What SC needs before its success is decided (R242). -/
structure ScOpens (s : State) (imm : BitVec 9) (rb : RegField) (a : Access) :
    Prop where
  aligned : (readGpr s (xLat s.cfg rb) + imm.signExtend 32).toNat % 4 = 0
  translated : translate s .store (readGpr s (xLat s.cfg rb) + imm.signExtend 32) = .ok a
  unwatched : watchAt s.cfg .store (readGpr s (xLat s.cfg rb) + imm.signExtend 32) = false
  /-- an SC paired with the active LL is to a synchronizable location (U13) -/
  paired : s.llBit = true → a = s.llAddr → a.cca.synchronizable = true

/-- The instructions from the LL to this SC lie in 2048 bytes (R256). -/
def inWindow (s : State) : Prop :=
  max s.llHi.toNat (s.pc.toNat + 3) - min s.llLo.toNat s.pc.toNat + 1 ≤ 2048

/-- `t` is `s` with bit `k` of register `r` holding `v` and the old value of the field pending, and
only what is named changed: general registers, coprocessor 0, the pc, the hazards, the draws. -/
structure ChangesBit (s t : State) (r : Cp0Reg) (k : Nat) (v : Bool)
    (f : HazardField) : Prop where
  pc : t.pc = s.pc + 4#32
  bits : ∀ j < 32, (readCp0 t r).getLsbD j = if j = k then v else (readCp0 s r).getLsbD j
  others : otherCp0 s t r
  hazards : ∀ h, h ∈ t.hazards ↔ h ∈ s.hazards ∨ h = (f, (readCp0 s r).getLsbD k)
  memory : ∀ q, readByte t.mem q = readByte s.mem q
  rest : t = { s with gpr := t.gpr, cp0 := t.cp0, pc := t.pc, hazards := t.hazards
                      draws := t.draws }

/-- Register `d` of `t` holds `v`, every other general register is that of `s`. -/
def onlyGpr (s t : State) (d : RegNum) (v : Word) : Prop :=
  Holds t d v ∧ ∀ r, r ≠ d → readGpr t r = readGpr s r

/-! ## Conditions on the state and the operands -/

/-- The bytes can be read through `a` (R66, R70, R71). -/
structure CanRead (s : State) (v : Word) (a : Access) (bytes : List Nat) : Prop where
  translated : translate s .load v = .ok a
  present : ∀ q ∈ bytes, populated s.cfg q = true
  oneType : typeConflict s bytes a.cca = false

/-- The bytes can be written through `a` (R66, R70, R71, R78). -/
structure CanWrite (s : State) (v : Word) (a : Access) (bytes : List Nat) : Prop where
  translated : translate s .store v = .ok a
  present : ∀ q ∈ bytes, populated s.cfg q = true
  oneType : typeConflict s bytes a.cca = false
  writable : ∀ q ∈ bytes, inText s.cfg q = false

/-- Coprocessor 0 access is enabled whatever a pending hazard lets the test read (R280). -/
def cop0Sure (s : State) : Prop :=
  s.privileged = true ∨ (fieldBit s .statusCU0 = true ∧ hazardOpen s .statusCU0 = false)

/-- Coprocessor 0 access is disabled whatever a pending hazard lets the test read (R280). -/
def cop0Denied (s : State) : Prop :=
  s.privileged = false ∧ fieldBit s .statusCU0 = false ∧ hazardOpen s .statusCU0 = false

/-- The forms that test coprocessor 0 access first (R281 a). -/
def needsCop0 : Instr → Bool
  | .cache _ _ _ | .di | .diRy _ | .dmt | .dmtRy _ | .dvpe | .dvpeRy _ | .ei | .eiRy _ | .emt
  | .emtRy _ | .evpe | .evpeRy _ | .mfc0 _ _ _ | .mtc0 _ _ _ => true
  | .addiuGp _ _ | .andi _ _ | .ehb | .ext _ _ _ _ | .insZero _ _ _ | .ins _ _ _ _ | .lb _ _
  | .lbu _ _ | .lh _ _ | .lhu _ _ | .ll _ _ _ | .lui _ _ | .lwl _ _ _ | .lwr _ _ _ | .lw _ _
  | .movnZero _ _ | .movn _ _ _ | .movtnZero _ | .movtn _ _ | .movtzZero _ | .movtz _ _
  | .movzZero _ _ | .movz _ _ _ | .ori _ _ | .pause | .pref _ _ _ | .rdhwr _ _ | .sb _ _
  | .sc _ _ _ | .sh _ _ | .swl _ _ _ | .swr _ _ _ | .sw _ _ | .sync _ | .xori _ _ => false

/-- The forms that exist only with the MT Module (R271). -/
def needsMT : Instr → Bool
  | .dmt | .dmtRy _ | .dvpe | .dvpeRy _ | .emt | .emtRy _ | .evpe | .evpeRy _ => true
  | .cache _ _ _ | .di | .diRy _ | .ei | .eiRy _ | .mfc0 _ _ _ | .mtc0 _ _ _ | .addiuGp _ _
  | .andi _ _ | .ehb | .ext _ _ _ _ | .insZero _ _ _ | .ins _ _ _ _ | .lb _ _ | .lbu _ _ | .lh _ _
  | .lhu _ _ | .ll _ _ _ | .lui _ _ | .lwl _ _ _ | .lwr _ _ _ | .lw _ _ | .movnZero _ _
  | .movn _ _ _ | .movtnZero _ | .movtn _ _ | .movtzZero _ | .movtz _ _ | .movzZero _ _
  | .movz _ _ _ | .ori _ _ | .pause | .pref _ _ _ | .rdhwr _ _ | .sb _ _ | .sc _ _ _ | .sh _ _
  | .swl _ _ _ | .swr _ _ _ | .sw _ _ | .sync _ | .xori _ _ => false

/-- The forms that can store to memory: the stores, and PREF (hint 30, R156). -/
def canStore : Instr → Bool
  | .sb _ _ | .sc _ _ _ | .sh _ _ | .swl _ _ _ | .swr _ _ _ | .sw _ _ | .pref _ _ _ => true
  | .dmt | .dmtRy _ | .dvpe | .dvpeRy _ | .emt | .emtRy _ | .evpe | .evpeRy _
  | .cache _ _ _ | .di | .diRy _ | .ei | .eiRy _ | .mfc0 _ _ _ | .mtc0 _ _ _ | .addiuGp _ _
  | .andi _ _ | .ehb | .ext _ _ _ _ | .insZero _ _ _ | .ins _ _ _ _ | .lb _ _ | .lbu _ _ | .lh _ _
  | .lhu _ _ | .ll _ _ _ | .lui _ _ | .lwl _ _ _ | .lwr _ _ _ | .lw _ _ | .movnZero _ _
  | .movn _ _ _ | .movtnZero _ | .movtn _ _ | .movtzZero _ | .movtz _ _ | .movzZero _ _
  | .movz _ _ _ | .ori _ _ | .pause | .rdhwr _ _ | .sync _ | .xori _ _ => false

/-! ## The exception lists (R261, R264) -/

/-- TLB Refill, TLB Invalid or Address Error of the load flavour. -/
def loadAddressTrap : Trap → Bool
  | .tlbRefill .load _ | .tlbInvalid .load _ | .addressError .load _ => true
  | .tlbRefill .store _ | .tlbInvalid .store _ | .addressError .store _ | .tlbModified _
  | .coprocessorUnusable _ | .reservedInstruction | .watch | .busError | .cacheError => false

/-- TLB Refill, TLB Invalid, TLB Modified or Address Error of the store flavour. -/
def storeAddressTrap : Trap → Bool
  | .tlbRefill .store _ | .tlbInvalid .store _ | .addressError .store _ | .tlbModified _ => true
  | .tlbRefill .load _ | .tlbInvalid .load _ | .addressError .load _
  | .coprocessorUnusable _ | .reservedInstruction | .watch | .busError | .cacheError => false

/-- The exception is in the instruction's row of R261. -/
def mayRaise (i : Instr) (e : Trap) : Bool :=
  match i with
  | .addiuGp _ _ | .andi _ _ | .lui _ _ | .ori _ _ | .xori _ _ => false
  | .ext _ _ _ _ | .insZero _ _ _ | .ins _ _ _ _ => false
  | .movnZero _ _ | .movn _ _ _ | .movtnZero _ | .movtn _ _ | .movtzZero _ | .movtz _ _
  | .movzZero _ _ | .movz _ _ _ => false
  | .ehb | .pause | .sync _ => false
  | .cache _ _ _ => loadAddressTrap e || e = .coprocessorUnusable 0 || e = .cacheError || e = .busError
  | .pref _ _ _ => e = .busError || e = .cacheError || e = .reservedInstruction
  | .di | .diRy _ => e = .coprocessorUnusable 0
  | .ei | .eiRy _ | .mfc0 _ _ _ | .mtc0 _ _ _ => e = .coprocessorUnusable 0 || e = .reservedInstruction
  | .dmt | .dmtRy _ | .dvpe | .dvpeRy _ | .emt | .emtRy _ | .evpe | .evpeRy _ =>
    e = .coprocessorUnusable 0 || e = .reservedInstruction
  | .rdhwr _ _ => e = .reservedInstruction
  | .lb _ _ | .lbu _ _ | .lh _ _ | .lhu _ _ | .lw _ _ => loadAddressTrap e || e = .busError
  | .ll _ _ _ => loadAddressTrap e || e = .watch
  | .lwl _ _ _ | .lwr _ _ _ => loadAddressTrap e || e = .busError || e = .watch
  | .sb _ _ | .sh _ _ | .sw _ _ => storeAddressTrap e || e = .busError
  | .sc _ _ _ => storeAddressTrap e || e = .watch
  | .swl _ _ _ | .swr _ _ _ => storeAddressTrap e || e = .busError || e = .watch

/-! ## The opcode table (R112) -/

/-- One row: the word belongs to it when `word AND mask = bits`. -/
structure OpcodeRow where
  bits : Word
  mask : Word
  deriving DecidableEq, Repr

/-- The row of an instruction (R112). -/
def rowOf : Instr → OpcodeRow
  | .addiuGp _ _ => ⟨0xF0000020#32, 0xF800F8E0#32⟩
  | .andi _ _ => ⟨0xF0006860#32, 0xF800F8E0#32⟩
  | .cache _ _ _ => ⟨0xF000D0A0#32, 0xFE00F8E0#32⟩
  | .di => ⟨0xF006670C#32, 0xFFFFFFFF#32⟩
  | .diRy _ => ⟨0xF002670C#32, 0xFFFFFF1F#32⟩
  | .dmt => ⟨0xF0266701#32, 0xFFFFFFFF#32⟩
  | .dmtRy _ => ⟨0xF0226701#32, 0xFFFFFF1F#32⟩
  | .dvpe => ⟨0xF0266700#32, 0xFFFFFFFF#32⟩
  | .dvpeRy _ => ⟨0xF0226700#32, 0xFFFFFF1F#32⟩
  | .ehb => ⟨0xF0C03010#32, 0xFFFFFFFF#32⟩
  | .ei => ⟨0xF007670C#32, 0xFFFFFFFF#32⟩
  | .eiRy _ => ⟨0xF003670C#32, 0xFFFFFF1F#32⟩
  | .emt => ⟨0xF0276701#32, 0xFFFFFFFF#32⟩
  | .emtRy _ => ⟨0xF0236701#32, 0xFFFFFF1F#32⟩
  | .evpe => ⟨0xF0276700#32, 0xFFFFFFFF#32⟩
  | .evpeRy _ => ⟨0xF0236700#32, 0xFFFFFF1F#32⟩
  | .ext _ _ _ _ => ⟨0xF0203008#32, 0xF820F81F#32⟩
  | .insZero _ _ _ => ⟨0xF0003004#32, 0xF820FF1F#32⟩
  | .ins _ _ _ _ => ⟨0xF0203004#32, 0xF820F81F#32⟩
  | .lb _ _ => ⟨0xF0009060#32, 0xF800F8E0#32⟩
  | .lbu _ _ => ⟨0xF00090A0#32, 0xF800F8E0#32⟩
  | .lh _ _ => ⟨0xF0009040#32, 0xF800F8E0#32⟩
  | .lhu _ _ => ⟨0xF0009080#32, 0xF800F8E0#32⟩
  | .ll _ _ _ => ⟨0xF00090C0#32, 0xFE18F8E0#32⟩
  | .lui _ _ => ⟨0xF0006820#32, 0xF800F8E0#32⟩
  | .lwl _ _ _ => ⟨0xF00090E0#32, 0xFE18F8E0#32⟩
  | .lwr _ _ _ => ⟨0xF01090E0#32, 0xFE18F8E0#32⟩
  | .lw _ _ => ⟨0xF0009020#32, 0xF800F8E0#32⟩
  | .mfc0 _ _ _ => ⟨0xF0006700#32, 0xFF1FFF00#32⟩
  | .movnZero _ _ => ⟨0xF000300A#32, 0xFFFFF81F#32⟩
  | .movn _ _ _ => ⟨0xF020300A#32, 0xFFF8F81F#32⟩
  | .movtnZero _ => ⟨0xF000301A#32, 0xFFFFF8FF#32⟩
  | .movtn _ _ => ⟨0xF020301A#32, 0xFFF8F8FF#32⟩
  | .movtzZero _ => ⟨0xF0003016#32, 0xFFFFF8FF#32⟩
  | .movtz _ _ => ⟨0xF0203016#32, 0xFFF8F8FF#32⟩
  | .movzZero _ _ => ⟨0xF0003006#32, 0xFFFFF81F#32⟩
  | .movz _ _ _ => ⟨0xF0203006#32, 0xFFF8F81F#32⟩
  | .mtc0 _ _ _ => ⟨0xF0016700#32, 0xFF1FFF00#32⟩
  | .ori _ _ => ⟨0xF0006840#32, 0xF800F8E0#32⟩
  | .pause => ⟨0xF1403018#32, 0xFFFFFFFF#32⟩
  | .pref _ _ _ => ⟨0xF000D080#32, 0xFE00F8E0#32⟩
  | .rdhwr _ _ => ⟨0xF000300C#32, 0xFFE0FF1F#32⟩
  | .sb _ _ => ⟨0xF000D060#32, 0xF800F8E0#32⟩
  | .sc _ _ _ => ⟨0xF000D0C0#32, 0xFE18F8E0#32⟩
  | .sh _ _ => ⟨0xF000D040#32, 0xF800F8E0#32⟩
  | .swl _ _ _ => ⟨0xF000D0E0#32, 0xFE18F8E0#32⟩
  | .swr _ _ _ => ⟨0xF010D0E0#32, 0xFE18F8E0#32⟩
  | .sw _ _ => ⟨0xF000D020#32, 0xF800F8E0#32⟩
  | .sync _ => ⟨0xF0003014#32, 0xF83FFFFF#32⟩
  | .xori _ _ => ⟨0xF0006880#32, 0xF800F8E0#32⟩

/-- The word belongs to the row. -/
def OpcodeRow.selects (r : OpcodeRow) (w : Word) : Prop := w &&& r.mask = r.bits

end Sys2Proof.Machine
end

