-- ==== Sys2Proof/Certificates/Slice0/Obligations.lean ====
section
/-! DEFINITION. The statements for the provers. Each is about the machine, none about a program. -/

open Sys2Proof Sys2Proof.Machine

/-! ## Encoding -/

/-- O1. Words written out from the figures and the vectors of 95_test_vectors.md decode to the
instructions they stand for: one of every format. -/
def Obligations.WrittenWordsDecode : Prop :=
  decodeWord 0xF2220234#32 = .ok (.addiuGp 2#3 0x1234#16) ∧
  decodeWord 0xF0106D20#32 = .ok (.lui 5#3 0x8000#16) ∧
  decodeWord 0xF7FF903E#32 = .ok (.lw 0#3 0xFFFE#16) ∧
  decodeWord 0xF1F5D4A0#32 = .ok (.cache 0x15#5 0x1E0#9 4#3) ∧
  decodeWord 0xF1E492DC#32 = .ok (.ll 2#3 0x1FC#9 4#3) ∧
  decodeWord 0xF014D2E5#32 = .ok (.swr 2#3 5#9 4#3) ∧
  decodeWord 0xF04167A4#32 = .ok (.mtc0 5#3 4#5 2#3) ∧
  decodeWord 0xF0226700#32 = .ok (.dvpeRy 0#3) ∧
  decodeWord 0xF22F3444#32 = .ok (.ins 2#3 4#3 8#5 15#5) ∧
  decodeWord 0xF024326A#32 = .ok (.movn 2#3 4#3 3#3) ∧
  decodeWord 0xF4803014#32 = .ok (.sync 18#5)

/-- O2. Decode and encode agree on every form, every operand at every value of its field, over
the word and over the bytes in either byte order. The order of the two halfwords and the bytes in
memory is that of log 8. -/
def Obligations.DecodeEncodeAgree : Prop :=
  ∀ i : Instr, decodeWord (encode i) = .ok i ∧
    ∀ be : Bool, decodeBytes be (bytesOfWord be (encode i)) = .ok i

/-- O3. No bit of a word is dropped: a word that decodes is the encoding of what it decodes to. -/
def Obligations.DecodedWordIsItsEncoding : Prop :=
  ∀ (w : Word) (i : Instr), decodeWord w = .ok i → encode i = w

/-- O4. The fifty rows of R112 select exactly the words that decode, each the form of its row,
and no word belongs to two rows. -/
def Obligations.RowsSelectTheirForms : Prop :=
  (∀ (w : Word) (i : Instr), decodeWord w = .ok i → (rowOf i).selects w) ∧
  (∀ (w : Word) (j : Instr), (rowOf j).selects w → ∃ i, decodeWord w = .ok i ∧ rowOf i = rowOf j) ∧
  (∀ (w : Word) (i j : Instr), (rowOf i).selects w → (rowOf j).selects w → rowOf i = rowOf j)

/-! ## The whole machine -/

/-- O5. The reset state has the invariant. The reset values are the model's choice (logs 10 and
11). -/
def Obligations.ResetHasInvariant : Prop := Inv State.reset

/-- O6. Every step keeps the invariant, from every state that has it. That memory has one
canonical form is the model's own (log 9); the even pc and the unwritable text are decisions of
the spec (D8, D20), the clause on access types its reading of R71 (log 16). -/
def Obligations.StepKeepsInvariant : Prop :=
  ∀ s t : State, Inv s → step s = .next t → Inv t

/-- O7. What R300 says of the start of a run: `HazardPending` is empty and `x[0]` reads as zero.
The empty `HazardPending` is the spec's own decision D22 (log 11). -/
def Obligations.ResetHasNoHazard : Prop :=
  State.reset.hazards = [] ∧ readGpr State.reset 0 = 0#32

/-- O8. A step runs the decoded instruction: after the events that other agents put before it,
where the four bytes at the pc are populated program text and decode to `i`, the step is `exec i`
at the state whose `LLlo` and `LLhi` have been widened to this instruction if `LLbit` is 1
(R256). With no event queued the events leave the state as it is. The fetch from program text
alone, translated like a load, is the model's choice (logs 6, 7 and 8), and so is the queue of
other agents' events (log 2). -/
def Obligations.StepRunsDecodedInstruction : Prop :=
  (∀ s : State, s.env = [] → deliver s = .ok s) ∧
  ∀ (s u : State) (i : Instr) (a b : Access),
    deliver s = .ok u → u.waiting = false → u.cfg.hasMips16e2 = true →
    u.pc.toNat % 2 = 0 → u.pc ≠ 0xFFFFFFFE#32 →
    translate u .fetch u.pc = .ok a → translate u .fetch (u.pc + 2#32) = .ok b →
    (∀ q ∈ [a.pAddr, a.pAddr + 1, b.pAddr, b.pAddr + 1],
      populated u.cfg q = true ∧ inText u.cfg q = true) →
    decodeBytes u.cfg.bigEndian
      ([a.pAddr, a.pAddr + 1, b.pAddr, b.pAddr + 1].map (readByte u.mem)) = .ok i →
    step s = exec i
      (if u.llBit then
        { u with
          llLo := if u.llLo.toNat ≤ u.pc.toNat then u.llLo else u.pc
          llHi := if u.llHi.toNat ≤ (u.pc + 3#32).toNat then u.pc + 3#32 else u.llHi }
      else u)

/-- O9. Four bytes of program text that are no instruction of the spec are refused by name, never
an exception (R113), and so is an odd pc (R28). Both refusals are decisions of the spec (D8, D9),
not the document's. -/
def Obligations.StepRefusesWhatIsNoInstruction : Prop :=
  (∀ (s u : State) (e : DecodeError) (a b : Access),
    deliver s = .ok u → u.waiting = false →
    u.pc.toNat % 2 = 0 → u.pc ≠ 0xFFFFFFFE#32 →
    translate u .fetch u.pc = .ok a → translate u .fetch (u.pc + 2#32) = .ok b →
    (∀ q ∈ [a.pAddr, a.pAddr + 1, b.pAddr, b.pAddr + 1],
      populated u.cfg q = true ∧ inText u.cfg q = true) →
    decodeBytes u.cfg.bigEndian
      ([a.pAddr, a.pAddr + 1, b.pAddr, b.pAddr + 1].map (readByte u.mem)) = .error e →
    step s = .refused (.notInSpec e)) ∧
  ∀ s u : State, deliver s = .ok u → u.waiting = false → u.pc.toNat % 2 = 1 →
    step s = .refused .fetchOddPc

/-- O10. A step leaves the parameters, the privilege and the delay-slot flag as they are, and
every general register that no register field can name: register 0 always, gp (R23) and T (R24)
with the map of R22. The map `XLat` is a parameter, PRESUMED (log 3); that `Privileged` is a cell
of its own is a decision (D25, log 29), that no instruction changes the delay-slot flag the
model's choice (log 20). -/
def Obligations.StepKeepsUnreachableState : Prop :=
  ∀ s t : State, step s = .next t →
    t.cfg = s.cfg ∧ t.privileged = s.privileged ∧ t.inDelaySlot = s.inDelaySlot ∧
    readGpr t 0 = 0#32 ∧
    (s.cfg.xLat = #v[16, 17, 2, 3, 4, 5, 6, 7] →
      readGpr t gpReg = readGpr s gpReg ∧ readGpr t tReg = readGpr s tReg) ∧
    ∀ r : RegNum, (∀ f : RegField, xLat s.cfg f ≠ r) → readGpr t r = readGpr s r

/-- O11. No step changes a byte of program text (R78): not this processor's stores, SC or
PrepareForStore, not another agent's. That text is not writable is the spec's decision D20 (logs
7 and 24). -/
def Obligations.StepKeepsProgramText : Prop :=
  ∀ s t : State, Memory.wf s.mem = true → step s = .next t →
    ∀ q : Nat, inText s.cfg q = true → readByte t.mem q = readByte s.mem q

/-- O12. A program without coprocessor 0 access cannot get it, and changes no coprocessor 0
register but EPC, which PAUSE may set (R281 a, R192). `Privileged` as a cell of its own is
decision D25 (log 29), EPC as a register PAUSE may set D32 (log 13), the bit of CU0 PRESUMED (log
4). -/
def Obligations.UnprivilegedCannotReachCop0 : Prop :=
  ∀ s t : State, cop0Denied s → step s = .next t →
    cop0Denied t ∧ ∀ r : Cp0Reg, r ≠ epcReg → readCp0 t r = readCp0 s r

/-- O13. Every instruction that completes moves the pc on by 4 (R27); a PAUSE that finds `LLbit`
1 is the one that stays, blocked (R192). That a blocked stream keeps the pc of its PAUSE is the
model's choice (log 13). -/
def Obligations.CompletionAdvancesPc : Prop :=
  ∀ (i : Instr) (s t : State), exec i s = .next t →
    t.pc = s.pc + 4#32 ∨ (i = .pause ∧ s.llBit = true ∧ t.pc = s.pc ∧ t.waiting = true)

/-- O14. Only LL sets `LLbit`; only an instruction that can store clears it (R46, R76). The
record that there has been an LL, which only LL makes, is the model's own field (log 23). That
PREF may clear `LLbit` (a PrepareForStore that zeroes the linked block) is the model's reading of
R156 (log 15). -/
def Obligations.OnlyLlSetsLlbit : Prop :=
  ∀ (i : Instr) (s t : State), exec i s = .next t →
    (s.llBit = false → t.llBit = true → ∃ rx imm rb, i = .ll rx imm rb) ∧
    (s.llBit = true → t.llBit = false → canStore i = true) ∧
    (t.llSeen = s.llSeen ∨ (t.llSeen = true ∧ ∃ rx imm rb, i = .ll rx imm rb))

/-- O15. The forms that are no store and no PREF leave every byte of memory as it was. For CACHE
this is the transparent cache of R151 (decision D16, log 14). -/
def Obligations.OnlyStoringFormsWriteMemory : Prop :=
  ∀ (i : Instr) (s t : State), canStore i = false → exec i s = .next t →
    ∀ q : Nat, readByte t.mem q = readByte s.mem q

/-- O16. An instruction raises only the exceptions of its row of R261, in the flavour R264 gives.
The flavours of loads and stores rest on R264, which marks them 'from general knowledge, not in
source' (log 22). -/
def Obligations.OnlyListedExceptions : Prop :=
  ∀ (i : Instr) (s : State) (e : Trap), exec i s = .fault (.trap e) → mayRaise i e = true

/-! ## Arithmetic and logic with an immediate -/

/-- O17. ADDIU, ANDI, LUI, ORI and XORI complete from every state with the value of their rule,
and change nothing but the destination and the pc. -/
def Obligations.AluImmediateResults : Prop :=
  ∀ (s : State) (rx : RegField) (imm : BitVec 16),
    (∃ t, exec (.addiuGp rx imm) s = .next t ∧
      WritesRegister s t (xLat s.cfg rx) (readGpr s 28 + imm.signExtend 32)) ∧
    (∃ t, exec (.andi rx imm) s = .next t ∧
      WritesRegister s t (xLat s.cfg rx) (readGpr s (xLat s.cfg rx) &&& imm.zeroExtend 32)) ∧
    (∃ t, exec (.lui rx imm) s = .next t ∧
      WritesRegister s t (xLat s.cfg rx) (imm.zeroExtend 32 <<< 16)) ∧
    (∃ t, exec (.ori rx imm) s = .next t ∧
      WritesRegister s t (xLat s.cfg rx) (readGpr s (xLat s.cfg rx) ||| imm.zeroExtend 32)) ∧
    (∃ t, exec (.xori rx imm) s = .next t ∧
      WritesRegister s t (xLat s.cfg rx) (readGpr s (xLat s.cfg rx) ^^^ imm.zeroExtend 32))

/-- O18. LUI then ORI leave the constant `hi || lo` (R145). -/
def Obligations.LuiOriBuildsConstant : Prop :=
  ∀ (s : State) (rx : RegField) (hi lo : BitVec 16),
    ∃ t u, exec (.lui rx hi) s = .next t ∧ exec (.ori rx lo) t = .next u ∧
      Holds u (xLat s.cfg rx) (hi ++ lo) ∧ u.pc = s.pc + 8#32 ∧
      (∀ r, r ≠ xLat s.cfg rx → readGpr u r = readGpr s r) ∧
      (∀ q, readByte u.mem q = readByte s.mem q) ∧
      u = { s with gpr := u.gpr, pc := u.pc }

/-! ## Bit fields -/

/-- O19. EXT, bit by bit, and its unpredictable operands (R200). -/
def Obligations.ExtResult : Prop :=
  ∀ (s : State) (ry rx : RegField) (lsb msbd : BitVec 5),
    if 31 < lsb.toNat + msbd.toNat then
      exec (.ext ry rx lsb msbd) s = .fault (.unpredictable .extField)
    else
      ∃ t v, exec (.ext ry rx lsb msbd) s = .next t ∧ WritesRegister s t (xLat s.cfg ry) v ∧
        ∀ k < 32, v.getLsbD k =
          (decide (k ≤ msbd.toNat) && (readGpr s (xLat s.cfg rx)).getLsbD (k + lsb.toNat))

/-- O20. INS in both forms, bit by bit, and its unpredictable operands (R201, R202). -/
def Obligations.InsResults : Prop :=
  ∀ (s : State) (ry rx : RegField) (lsb msb : BitVec 5),
    if msb.toNat < lsb.toNat then
      exec (.insZero ry lsb msb) s = .fault (.unpredictable .insField) ∧
      exec (.ins ry rx lsb msb) s = .fault (.unpredictable .insField)
    else
      (∃ t v, exec (.insZero ry lsb msb) s = .next t ∧ WritesRegister s t (xLat s.cfg ry) v ∧
        ∀ k < 32, v.getLsbD k =
          if lsb.toNat ≤ k ∧ k ≤ msb.toNat then false else (readGpr s (xLat s.cfg ry)).getLsbD k) ∧
      (∃ t v, exec (.ins ry rx lsb msb) s = .next t ∧ WritesRegister s t (xLat s.cfg ry) v ∧
        ∀ k < 32, v.getLsbD k =
          if lsb.toNat ≤ k ∧ k ≤ msb.toNat then (readGpr s (xLat s.cfg rx)).getLsbD (k - lsb.toNat)
          else (readGpr s (xLat s.cfg ry)).getLsbD k)

/-- O21. EXT then INS move a field (R203): the field of the target is the field of the original
source; the target's other bits are as they were where the target is not the register in between.
Neither is register 0, which R22's map never names. -/
def Obligations.ExtThenInsMovesField : Prop :=
  ∀ (s : State) (ry rx rz : RegField) (lsb msbd msb : BitVec 5),
    xLat s.cfg ry ≠ 0 → xLat s.cfg rz ≠ 0 →
    lsb.toNat + msbd.toNat ≤ 31 → msb.toNat = lsb.toNat + msbd.toNat →
    ∃ t u, exec (.ext ry rx lsb msbd) s = .next t ∧ exec (.ins rz ry lsb msb) t = .next u ∧
      (∀ k < 32, lsb.toNat ≤ k → k ≤ msb.toNat →
        (readGpr u (xLat s.cfg rz)).getLsbD k = (readGpr s (xLat s.cfg rx)).getLsbD k) ∧
      (xLat s.cfg rz ≠ xLat s.cfg ry → ∀ k < 32, ¬ (lsb.toNat ≤ k ∧ k ≤ msb.toNat) →
        (readGpr u (xLat s.cfg rz)).getLsbD k = (readGpr s (xLat s.cfg rz)).getLsbD k)

/-! ## Conditional moves -/

/-- O22. The eight conditional moves complete from every state; the destination takes the value
where the condition holds, else it keeps its own (R230 to R238). -/
def Obligations.ConditionalMoveResults : Prop :=
  ∀ (s : State) (rx rb ry : RegField),
    (∃ t, exec (.movnZero rx ry) s = .next t ∧ WritesRegister s t (xLat s.cfg rx)
      (if readGpr s (xLat s.cfg ry) ≠ 0#32 then 0#32 else readGpr s (xLat s.cfg rx))) ∧
    (∃ t, exec (.movn rx rb ry) s = .next t ∧ WritesRegister s t (xLat s.cfg rx)
      (if readGpr s (xLat s.cfg ry) ≠ 0#32 then readGpr s (xLat s.cfg rb)
        else readGpr s (xLat s.cfg rx))) ∧
    (∃ t, exec (.movtnZero rx) s = .next t ∧ WritesRegister s t (xLat s.cfg rx)
      (if readGpr s 24 ≠ 0#32 then 0#32 else readGpr s (xLat s.cfg rx))) ∧
    (∃ t, exec (.movtn rx rb) s = .next t ∧ WritesRegister s t (xLat s.cfg rx)
      (if readGpr s 24 ≠ 0#32 then readGpr s (xLat s.cfg rb) else readGpr s (xLat s.cfg rx))) ∧
    (∃ t, exec (.movtzZero rx) s = .next t ∧ WritesRegister s t (xLat s.cfg rx)
      (if readGpr s 24 = 0#32 then 0#32 else readGpr s (xLat s.cfg rx))) ∧
    (∃ t, exec (.movtz rx rb) s = .next t ∧ WritesRegister s t (xLat s.cfg rx)
      (if readGpr s 24 = 0#32 then readGpr s (xLat s.cfg rb) else readGpr s (xLat s.cfg rx))) ∧
    (∃ t, exec (.movzZero rx ry) s = .next t ∧ WritesRegister s t (xLat s.cfg rx)
      (if readGpr s (xLat s.cfg ry) = 0#32 then 0#32 else readGpr s (xLat s.cfg rx))) ∧
    (∃ t, exec (.movz rx rb ry) s = .next t ∧ WritesRegister s t (xLat s.cfg rx)
      (if readGpr s (xLat s.cfg ry) = 0#32 then readGpr s (xLat s.cfg rb)
        else readGpr s (xLat s.cfg rx)))

/-- O23. Complementary pairs select one of two registers (R239). The registers that must differ
are named as registers: with R22's map two fields that differ name two, and none names T. -/
def Obligations.ComplementaryMovesSelect : Prop :=
  ∀ (s : State) (rx ra rb ry : RegField), xLat s.cfg rb ≠ xLat s.cfg rx →
    (xLat s.cfg rx ≠ xLat s.cfg ry →
      ∃ t u, exec (.movz rx ra ry) s = .next t ∧ exec (.movn rx rb ry) t = .next u ∧
      Holds u (xLat s.cfg rx)
        (if readGpr s (xLat s.cfg ry) = 0#32 then readGpr s (xLat s.cfg ra)
          else readGpr s (xLat s.cfg rb))) ∧
    (xLat s.cfg rx ≠ 24 →
      ∃ t u, exec (.movtz rx ra) s = .next t ∧ exec (.movtn rx rb) t = .next u ∧
      Holds u (xLat s.cfg rx)
        (if readGpr s 24 = 0#32 then readGpr s (xLat s.cfg ra) else readGpr s (xLat s.cfg rb)))

/-! ## Loads -/

/-- O24. LB, LBU, LH, LHU and LW complete where the address is aligned, translates, has no bus
error and its bytes can be read; they load the bytes in the current byte order, extended as their
rule says, and change only the destination, the pc, the history and what R255 says of the link
state. That an access outside populated memory or with a second access type stops is taken from
D4 and R71 (logs 16 and 24). -/
def Obligations.GpLoadResults : Prop :=
  ∀ (s : State) (rx : RegField) (imm : BitVec 16) (a : Access),
    let v := readGpr s 28 + imm.signExtend 32
    let p := a.pAddr
    let m := readByte s.mem
    busErrorAt s.cfg .load p = false →
    (CanRead s v a [p] →
      (∃ t, exec (.lb rx imm) s = .next t ∧
        LoadsRegister s t (xLat s.cfg rx) ((m p).signExtend 32) a [p]) ∧
      (∃ t, exec (.lbu rx imm) s = .next t ∧
        LoadsRegister s t (xLat s.cfg rx) ((m p).zeroExtend 32) a [p])) ∧
    (v.toNat % 2 = 0 → CanRead s v a [p, p + 1] →
      let h : Half := if s.cfg.bigEndian then m p ++ m (p + 1) else m (p + 1) ++ m p
      (∃ t, exec (.lh rx imm) s = .next t ∧
        LoadsRegister s t (xLat s.cfg rx) (h.signExtend 32) a [p, p + 1]) ∧
      (∃ t, exec (.lhu rx imm) s = .next t ∧
        LoadsRegister s t (xLat s.cfg rx) (h.zeroExtend 32) a [p, p + 1])) ∧
    (v.toNat % 4 = 0 → CanRead s v a [p, p + 1, p + 2, p + 3] →
      let w : Word := if s.cfg.bigEndian then m p ++ m (p + 1) ++ m (p + 2) ++ m (p + 3)
        else m (p + 3) ++ m (p + 2) ++ m (p + 1) ++ m p
      ∃ t, exec (.lw rx imm) s = .next t ∧
        LoadsRegister s t (xLat s.cfg rx) w a [p, p + 1, p + 2, p + 3])

/-- O25. The exceptions of the GP-relative loads in the order of R211: alignment before
translation, translation before bus error. That the bus error comes last is decision D23 (log
22). -/
def Obligations.GpLoadExceptions : Prop :=
  ∀ (s : State) (rx : RegField) (imm : BitVec 16),
    let v := readGpr s 28 + imm.signExtend 32
    (v.toNat % 2 = 1 →
      exec (.lh rx imm) s = .fault (.trap (.addressError .load v)) ∧
      exec (.lhu rx imm) s = .fault (.trap (.addressError .load v))) ∧
    (v.toNat % 4 ≠ 0 → exec (.lw rx imm) s = .fault (.trap (.addressError .load v))) ∧
    (∀ e, translate s .load v = .error e →
      exec (.lb rx imm) s = .fault (.trap e) ∧ exec (.lbu rx imm) s = .fault (.trap e) ∧
      (v.toNat % 2 = 0 →
        exec (.lh rx imm) s = .fault (.trap e) ∧ exec (.lhu rx imm) s = .fault (.trap e)) ∧
      (v.toNat % 4 = 0 → exec (.lw rx imm) s = .fault (.trap e))) ∧
    (∀ a, translate s .load v = .ok a → busErrorAt s.cfg .load a.pAddr = true →
      exec (.lb rx imm) s = .fault (.trap .busError) ∧
      exec (.lbu rx imm) s = .fault (.trap .busError) ∧
      (v.toNat % 2 = 0 →
        exec (.lh rx imm) s = .fault (.trap .busError) ∧
        exec (.lhu rx imm) s = .fault (.trap .busError)) ∧
      (v.toNat % 4 = 0 → exec (.lw rx imm) s = .fault (.trap .busError)))

/-- O26. LL completes where its address is aligned, translates, is not watched and is
synchronizable and its word can be read: it loads the word and begins a sequence (R218, R46, R47,
R256). That an access outside populated memory or with a second access type stops is taken from
D4 and R71 (logs 16 and 24). -/
def Obligations.LlResult : Prop :=
  ∀ (s : State) (rx : RegField) (imm : BitVec 9) (rb : RegField) (a : Access),
    let v := readGpr s (xLat s.cfg rb) + imm.signExtend 32
    let p := a.pAddr
    let m := readByte s.mem
    v.toNat % 4 = 0 → CanRead s v a [p, p + 1, p + 2, p + 3] →
    watchAt s.cfg .load v = false → a.cca.synchronizable = true →
    ∃ t, exec (.ll rx imm rb) s = .next t ∧ t.pc = s.pc + 4#32 ∧
      Holds t (xLat s.cfg rx)
        (if s.cfg.bigEndian then m p ++ m (p + 1) ++ m (p + 2) ++ m (p + 3)
          else m (p + 3) ++ m (p + 2) ++ m (p + 1) ++ m p) ∧
      (∀ r, r ≠ xLat s.cfg rx → readGpr t r = readGpr s r) ∧
      (∀ q, readByte t.mem q = readByte s.mem q) ∧
      t.llBit = true ∧ t.llSeen = true ∧ t.llAddr = a ∧ a.vAddr = v ∧ t.llTaint = false ∧
      t.llLo = s.pc ∧ t.llHi = s.pc + 3#32 ∧
      t.history = .access .load [p, p + 1, p + 2, p + 3] a.cca :: s.history ∧
      t = { s with gpr := t.gpr, pc := t.pc, llBit := t.llBit, llSeen := t.llSeen
                   llAddr := t.llAddr, llTaint := t.llTaint, llLo := t.llLo, llHi := t.llHi
                   history := t.history }

/-- O27. The exceptions of LL and SC: Address Error of the load or the store flavour, then
translation, then Watch; LL, and the SC paired with it, at a location that is not synchronizable
is unpredictable (R75, R218, R242). The parameter WatchMatch is D29 (log 22); a location that is
not synchronizable is a property of the access type (log 16); that only the SC paired with the
open LL is unpredictable there is U13, and that this comes after Watch the model's choice (log
24). -/
def Obligations.LinkedExceptions : Prop :=
  ∀ (s : State) (rx : RegField) (imm : BitVec 9) (rb : RegField),
    let v := readGpr s (xLat s.cfg rb) + imm.signExtend 32
    (v.toNat % 4 ≠ 0 →
      exec (.ll rx imm rb) s = .fault (.trap (.addressError .load v)) ∧
      exec (.sc rx imm rb) s = .fault (.trap (.addressError .store v))) ∧
    (v.toNat % 4 = 0 →
      (∀ e, translate s .load v = .error e → exec (.ll rx imm rb) s = .fault (.trap e)) ∧
      (∀ e, translate s .store v = .error e → exec (.sc rx imm rb) s = .fault (.trap e)) ∧
      (∀ a, translate s .load v = .ok a →
        (watchAt s.cfg .load v = true → exec (.ll rx imm rb) s = .fault (.trap .watch)) ∧
        (watchAt s.cfg .load v = false → a.cca.synchronizable = false →
          exec (.ll rx imm rb) s = .fault (.unpredictable .notSynchronizable))) ∧
      (∀ a, translate s .store v = .ok a →
        (watchAt s.cfg .store v = true → exec (.sc rx imm rb) s = .fault (.trap .watch)) ∧
        (watchAt s.cfg .store v = false → a.cca.synchronizable = false →
          s.llBit = true → a = s.llAddr →
          exec (.sc rx imm rb) s = .fault (.unpredictable .notSynchronizable))))

/-- O28. LWL and LWR, byte by byte as the table of R220 gives them in either byte order; `b` is
the offset of the address in its aligned word. That an access outside populated memory or with a
second access type stops is taken from D4 and R71 (logs 16 and 24). -/
def Obligations.UnalignedLoadResults : Prop :=
  ∀ (s : State) (rx : RegField) (imm : BitVec 9) (rb : RegField) (a : Access),
    let v := readGpr s (xLat s.cfg rb) + imm.signExtend 32
    let p := a.pAddr
    let b := v.toNat % 4
    let be := s.cfg.bigEndian
    let m := readByte s.mem
    let old := readGpr s (xLat s.cfg rx)
    watchAt s.cfg .load v = false → busErrorAt s.cfg .load p = false →
    (CanRead s v a (leftSpan be p b) →
      ∃ t w, exec (.lwl rx imm rb) s = .next t ∧
        LoadsRegister s t (xLat s.cfg rx) w a (leftSpan be p b) ∧
        ∀ k < 4, byteOf w k =
          if be then (if b ≤ k then m (p + (3 - k)) else byteOf old k)
          else (if 3 - b ≤ k then m (p - (3 - k)) else byteOf old k)) ∧
    (CanRead s v a (rightSpan be p b) →
      ∃ t w, exec (.lwr rx imm rb) s = .next t ∧
        LoadsRegister s t (xLat s.cfg rx) w a (rightSpan be p b) ∧
        ∀ k < 4, byteOf w k =
          if be then (if k ≤ b then m (p - k) else byteOf old k)
          else (if k ≤ 3 - b then m (p + k) else byteOf old k))

/-- O29. LWL and LWR together load an unaligned word (R223), on a machine whose addresses
translate to themselves: big-endian LWL at the first byte and LWR at the last, little-endian the
other way. -/
def Obligations.UnalignedPairLoadsWord : Prop :=
  ∀ (s : State) (rx rb : RegField) (i j : BitVec 9),
    let v := readGpr s (xLat s.cfg rb) + i.signExtend 32
    let m := fun k : Nat => readByte s.mem (v + BitVec.ofNat 32 k).toNat
    let whole := (List.range 4).map fun k => (v + BitVec.ofNat 32 k).toNat
    xLat s.cfg rx ≠ xLat s.cfg rb → j.signExtend 32 = i.signExtend 32 + 3#32 →
    s.cfg.translation = [] → s.cfg.watches = [] → s.cfg.busErrors = [] →
    (∀ q ∈ whole, populated s.cfg q = true) →
    typeConflict s whole (ccaFrom s s.cfg.defaultCca) = false →
    (s.cfg.bigEndian = true →
      ∃ t u, exec (.lwl rx i rb) s = .next t ∧ exec (.lwr rx j rb) t = .next u ∧
        Holds u (xLat s.cfg rx) (m 0 ++ m 1 ++ m 2 ++ m 3)) ∧
    (s.cfg.bigEndian = false →
      ∃ t u, exec (.lwr rx i rb) s = .next t ∧ exec (.lwl rx j rb) t = .next u ∧
        Holds u (xLat s.cfg rx) (m 3 ++ m 2 ++ m 1 ++ m 0))

/-- O30. The exceptions of LWL, LWR, SWL and SWR in the order of R221 and R251: translation,
Watch, Bus Error; never Address Error for misalignment. The order of Watch and Bus Error is
decision D23 (log 22). -/
def Obligations.UnalignedExceptions : Prop :=
  ∀ (s : State) (rx : RegField) (imm : BitVec 9) (rb : RegField),
    let v := readGpr s (xLat s.cfg rb) + imm.signExtend 32
    (∀ e, translate s .load v = .error e →
      exec (.lwl rx imm rb) s = .fault (.trap e) ∧ exec (.lwr rx imm rb) s = .fault (.trap e)) ∧
    (∀ e, translate s .store v = .error e →
      exec (.swl rx imm rb) s = .fault (.trap e) ∧ exec (.swr rx imm rb) s = .fault (.trap e)) ∧
    (∀ a, translate s .load v = .ok a →
      (watchAt s.cfg .load v = true →
        exec (.lwl rx imm rb) s = .fault (.trap .watch) ∧
        exec (.lwr rx imm rb) s = .fault (.trap .watch)) ∧
      (watchAt s.cfg .load v = false → busErrorAt s.cfg .load a.pAddr = true →
        exec (.lwl rx imm rb) s = .fault (.trap .busError) ∧
        exec (.lwr rx imm rb) s = .fault (.trap .busError))) ∧
    (∀ a, translate s .store v = .ok a →
      (watchAt s.cfg .store v = true →
        exec (.swl rx imm rb) s = .fault (.trap .watch) ∧
        exec (.swr rx imm rb) s = .fault (.trap .watch)) ∧
      (watchAt s.cfg .store v = false → busErrorAt s.cfg .store a.pAddr = true →
        exec (.swl rx imm rb) s = .fault (.trap .busError) ∧
        exec (.swr rx imm rb) s = .fault (.trap .busError)))

/-! ## Stores -/

/-- O31. SB, SH and SW complete where the address is aligned, translates, has no bus error and
its bytes can be written; they store the low bytes of the register in the current byte order and
change only those bytes, the pc, the history and what R255 says of the link state. That an access
outside populated memory or with a second access type stops is taken from D4 and R71 (logs 16 and
24). -/
def Obligations.GpStoreResults : Prop :=
  ∀ (s : State) (rx : RegField) (imm : BitVec 16) (a : Access),
    let v := readGpr s 28 + imm.signExtend 32
    let p := a.pAddr
    let y := readGpr s (xLat s.cfg rx)
    Memory.wf s.mem = true → busErrorAt s.cfg .store p = false →
    (CanWrite s v a [p] →
      ∃ t, exec (.sb rx imm) s = .next t ∧ Stores s t a [(p, y.extractLsb' 0 8)]) ∧
    (v.toNat % 2 = 0 → CanWrite s v a [p, p + 1] →
      ∃ t, exec (.sh rx imm) s = .next t ∧ Stores s t a
        (if s.cfg.bigEndian then [(p, y.extractLsb' 8 8), (p + 1, y.extractLsb' 0 8)]
          else [(p, y.extractLsb' 0 8), (p + 1, y.extractLsb' 8 8)])) ∧
    (v.toNat % 4 = 0 → CanWrite s v a [p, p + 1, p + 2, p + 3] →
      ∃ t, exec (.sw rx imm) s = .next t ∧ Stores s t a
        (if s.cfg.bigEndian then
          [(p, y.extractLsb' 24 8), (p + 1, y.extractLsb' 16 8),
           (p + 2, y.extractLsb' 8 8), (p + 3, y.extractLsb' 0 8)]
        else
          [(p, y.extractLsb' 0 8), (p + 1, y.extractLsb' 8 8),
           (p + 2, y.extractLsb' 16 8), (p + 3, y.extractLsb' 24 8)]))

/-- O32. The exceptions of the GP-relative stores in the order of R247, and the refusal of a
store into program text (R78). The refusal of a store to program text is decision D20 (log 24),
the place of the bus error D23 (log 22). -/
def Obligations.GpStoreExceptions : Prop :=
  ∀ (s : State) (rx : RegField) (imm : BitVec 16),
    let v := readGpr s 28 + imm.signExtend 32
    let half := fun a : Access => [a.pAddr, a.pAddr + 1]
    let whole := fun a : Access => [a.pAddr, a.pAddr + 1, a.pAddr + 2, a.pAddr + 3]
    (v.toNat % 2 = 1 → exec (.sh rx imm) s = .fault (.trap (.addressError .store v))) ∧
    (v.toNat % 4 ≠ 0 → exec (.sw rx imm) s = .fault (.trap (.addressError .store v))) ∧
    (∀ e, translate s .store v = .error e →
      exec (.sb rx imm) s = .fault (.trap e) ∧
      (v.toNat % 2 = 0 → exec (.sh rx imm) s = .fault (.trap e)) ∧
      (v.toNat % 4 = 0 → exec (.sw rx imm) s = .fault (.trap e))) ∧
    (∀ a, translate s .store v = .ok a →
      (busErrorAt s.cfg .store a.pAddr = true →
        exec (.sb rx imm) s = .fault (.trap .busError) ∧
        (v.toNat % 2 = 0 → exec (.sh rx imm) s = .fault (.trap .busError)) ∧
        (v.toNat % 4 = 0 → exec (.sw rx imm) s = .fault (.trap .busError))) ∧
      (busErrorAt s.cfg .store a.pAddr = false → populated s.cfg a.pAddr = true →
        typeConflict s [a.pAddr] a.cca = false → inText s.cfg a.pAddr = true →
        exec (.sb rx imm) s = .refused .textWrite) ∧
      (v.toNat % 2 = 0 → busErrorAt s.cfg .store a.pAddr = false →
        (∀ q ∈ half a, populated s.cfg q = true) → typeConflict s (half a) a.cca = false →
        (∃ q ∈ half a, inText s.cfg q = true) →
        exec (.sh rx imm) s = .refused .textWrite) ∧
      (v.toNat % 4 = 0 → busErrorAt s.cfg .store a.pAddr = false →
        (∀ q ∈ whole a, populated s.cfg q = true) → typeConflict s (whole a) a.cca = false →
        (∃ q ∈ whole a, inText s.cfg q = true) →
        exec (.sw rx imm) s = .refused .textWrite))

/-- O33. SWL and SWR, byte by byte as the table of R249 gives them in either byte order; `b` is
the offset of the address in its aligned word. The bytes stored to are those of `leftCells` and
`rightCells`; every other byte is as before. That an access outside populated memory or with a
second access type stops is taken from D4 and R71 (logs 16 and 24). -/
def Obligations.UnalignedStoreResults : Prop :=
  ∀ (s : State) (rx : RegField) (imm : BitVec 9) (rb : RegField) (a : Access),
    let v := readGpr s (xLat s.cfg rb) + imm.signExtend 32
    let p := a.pAddr
    let b := v.toNat % 4
    let be := s.cfg.bigEndian
    let y := readGpr s (xLat s.cfg rx)
    Memory.wf s.mem = true →
    watchAt s.cfg .store v = false → busErrorAt s.cfg .store p = false →
    (CanWrite s v a ((leftCells be p b y).map (·.1)) →
      ∃ t, exec (.swl rx imm rb) s = .next t ∧ Stores s t a (leftCells be p b y) ∧
        ∀ q, readByte t.mem q =
          if be then
            (if p ≤ q ∧ q ≤ p + (3 - b) then byteOf y (3 - (q - p)) else readByte s.mem q)
          else (if p - b ≤ q ∧ q ≤ p then byteOf y (3 - (p - q)) else readByte s.mem q)) ∧
    (CanWrite s v a ((rightCells be p b y).map (·.1)) →
      ∃ t, exec (.swr rx imm rb) s = .next t ∧ Stores s t a (rightCells be p b y) ∧
        ∀ q, readByte t.mem q =
          if be then (if p - b ≤ q ∧ q ≤ p then byteOf y (p - q) else readByte s.mem q)
          else (if p ≤ q ∧ q ≤ p + (3 - b) then byteOf y (q - p) else readByte s.mem q))

/-- O34. SWL and SWR together store an unaligned word, and LWL and LWR read it back (R253), on a
machine whose addresses translate to themselves. -/
def Obligations.UnalignedPairStoresWord : Prop :=
  ∀ (s : State) (rx rz rb : RegField) (i j : BitVec 9),
    let v := readGpr s (xLat s.cfg rb) + i.signExtend 32
    let y := readGpr s (xLat s.cfg rx)
    let whole := (List.range 4).map fun k => (v + BitVec.ofNat 32 k).toNat
    xLat s.cfg rz ≠ xLat s.cfg rb → j.signExtend 32 = i.signExtend 32 + 3#32 →
    Memory.wf s.mem = true →
    s.cfg.translation = [] → s.cfg.watches = [] → s.cfg.busErrors = [] →
    (∀ q ∈ whole, populated s.cfg q = true ∧ inText s.cfg q = false) →
    typeConflict s whole (ccaFrom s s.cfg.defaultCca) = false →
    (s.cfg.bigEndian = true →
      ∃ t u x z, exec (.swl rx i rb) s = .next t ∧ exec (.swr rx j rb) t = .next u ∧
        (∀ k < 4, readByte u.mem (v + BitVec.ofNat 32 k).toNat = byteOf y (3 - k)) ∧
        (∀ q, q ∉ whole → readByte u.mem q = readByte s.mem q) ∧
        exec (.lwl rz i rb) u = .next x ∧ exec (.lwr rz j rb) x = .next z ∧
        Holds z (xLat s.cfg rz) y) ∧
    (s.cfg.bigEndian = false →
      ∃ t u x z, exec (.swr rx i rb) s = .next t ∧ exec (.swl rx j rb) t = .next u ∧
        (∀ k < 4, readByte u.mem (v + BitVec.ofNat 32 k).toNat = byteOf y k) ∧
        (∀ q, q ∉ whole → readByte u.mem q = readByte s.mem q) ∧
        exec (.lwr rz i rb) u = .next x ∧ exec (.lwl rz j rb) x = .next z ∧
        Holds z (xLat s.cfg rz) y)

/-! ## Store conditional -/

/-- O35. SC succeeds in an intact sequence: `LLbit` 1, the same address as the LL, no taint, all
within 2048 bytes (R242, the last row of R243). `LLtaint` and the 2048-byte bookkeeping are
decision D15 (log 23). That an access outside populated memory or with a second access type stops
is taken from D4 and R71 (logs 16 and 24). -/
def Obligations.ScSucceedsWhenIntact : Prop :=
  ∀ (s : State) (rx : RegField) (imm : BitVec 9) (rb : RegField) (a : Access),
    Memory.wf s.mem = true → ScOpens s imm rb a →
    CanWrite s (readGpr s (xLat s.cfg rb) + imm.signExtend 32) a
      [a.pAddr, a.pAddr + 1, a.pAddr + 2, a.pAddr + 3] →
    s.llBit = true → a = s.llAddr → s.llTaint = false → inWindow s →
    ∃ t, exec (.sc rx imm rb) s = .next t ∧ ScSuccess s t rx a ∧ t.draws = s.draws

/-- O36. SC fails with `LLbit` 0 where there has been an LL or `Config5LLB = 1`, and, where
`Config5LLB = 1`, at another address than the LL's (the first two rows of R243). That the case
with no LL before it and `Config5LLB = 0` is drawn instead is log 23. The bit of `Config5.LLB` is
PRESUMED (log 4). -/
def Obligations.ScFailsWithoutLink : Prop :=
  ∀ (s : State) (rx : RegField) (imm : BitVec 9) (rb : RegField) (a : Access),
    ScOpens s imm rb a →
    (s.llBit = false ∧ (s.llSeen = true ∨ config5LLB s = true)) ∨
      (a ≠ s.llAddr ∧ config5LLB s = true) →
    ∃ t, exec (.sc rx imm rb) s = .next t ∧ ScFailure s t rx ∧ t.draws = s.draws

/-- O37. In the drawn rows of R243 SC succeeds or fails, and nothing says which: at another
address where `Config5LLB = 0`, and at the LL's address with a taint or outside the 2048 bytes;
so does, where `Config5LLB = 0`, an SC with no LL before it (R244, U14; log 23). That the rows of
R243 draw the success is decision D15 (log 23). That an access outside populated memory or with a
second access type stops is taken from D4 and R71 (logs 16 and 24). -/
def Obligations.ScIsDrawnWhenWeakened : Prop :=
  ∀ (s : State) (rx : RegField) (imm : BitVec 9) (rb : RegField) (a : Access),
    Memory.wf s.mem = true → ScOpens s imm rb a →
    CanWrite s (readGpr s (xLat s.cfg rb) + imm.signExtend 32) a
      [a.pAddr, a.pAddr + 1, a.pAddr + 2, a.pAddr + 3] →
    (s.llBit = true ∧ a ≠ s.llAddr ∧ config5LLB s = false) ∨
      (s.llBit = true ∧ a = s.llAddr ∧ (s.llTaint = true ∨ ¬ inWindow s)) ∨
      (s.llBit = false ∧ s.llSeen = false ∧ config5LLB s = false) →
    ∃ t, exec (.sc rx imm rb) s = .next t ∧ (ScSuccess s t rx a ∨ ScFailure s t rx) ∧
      t.draws = s.draws + 1

/-- O38. LL and SC to one address, one directly after the other, update the word: the SC succeeds
and stores its register (R75, R218, R242). That an access outside populated memory or with a
second access type stops is taken from D4 and R71 (logs 16 and 24). -/
def Obligations.LlThenScSucceeds : Prop :=
  ∀ (s : State) (rx rz : RegField) (imm : BitVec 9) (rb : RegField) (a : Access),
    let v := readGpr s (xLat s.cfg rb) + imm.signExtend 32
    let word := [a.pAddr, a.pAddr + 1, a.pAddr + 2, a.pAddr + 3]
    xLat s.cfg rx ≠ xLat s.cfg rb → s.pc.toNat + 8 ≤ 2 ^ 32 → Memory.wf s.mem = true →
    v.toNat % 4 = 0 → CanRead s v a word → CanWrite s v a word →
    watchAt s.cfg .load v = false → watchAt s.cfg .store v = false →
    a.cca.synchronizable = true →
    ∃ t u, exec (.ll rx imm rb) s = .next t ∧ exec (.sc rz imm rb) t = .next u ∧
      ScSuccess t u rz a

/-- O39. A store of another agent between two instructions (R287, R76 item 3): its bytes are in
memory, every other byte is as before, and `LLbit` is cleared exactly when one of them lies in
the linked block. The queue `env` of other agents' events is the model's choice (log 2). -/
def Obligations.RemoteStoreClearsLlbit : Prop :=
  ∀ (s : State) (p : Nat) (bytes : List Byte) (rest : List (List EnvEvent)),
    s.env = [.store p bytes] :: rest → Memory.wf s.mem = true →
    (∀ k < bytes.length, populated s.cfg (p + k) = true ∧ inText s.cfg (p + k) = false) →
    ∃ t, deliver s = .ok t ∧
      (∀ k < bytes.length, readByte t.mem (p + k) = bytes.getD k 0#8) ∧
      (∀ q, q < p ∨ p + bytes.length ≤ q → readByte t.mem q = readByte s.mem q) ∧
      (t.llBit = true ↔
        s.llBit = true ∧ ∀ k < bytes.length, inLinkBlock s (p + k) = false) ∧
      t = { s with mem := t.mem, llBit := t.llBit, env := rest }

/-! ## Coprocessor 0 -/

/-- O40. DI and EI in both forms with coprocessor 0 access: the bit IE changes at once, its old
value is pending, the `ry` forms return the old Status (R160, R161, R166, R167). The place of IE
is PRESUMED (log 4); that EI always completes, though R261 lists Reserved Instruction with no
condition, is decision D31 (R271, log 30, DESIGN CHOICE). -/
def Obligations.DiEiResults : Prop :=
  ∀ (s : State) (ry : RegField), cop0Sure s →
    (∃ t, exec .di s = .next t ∧ ChangesBit s t statusReg 0 false .statusIE ∧
      (∀ r, readGpr t r = readGpr s r) ∧ t.draws = s.draws) ∧
    (∃ t, exec (.diRy ry) s = .next t ∧ ChangesBit s t statusReg 0 false .statusIE ∧
      onlyGpr s t (xLat s.cfg ry) (readCp0 s statusReg) ∧ t.draws = s.draws) ∧
    (∃ t, exec .ei s = .next t ∧ ChangesBit s t statusReg 0 true .statusIE ∧
      (∀ r, readGpr t r = readGpr s r) ∧ t.draws = s.draws) ∧
    (∃ t, exec (.eiRy ry) s = .next t ∧ ChangesBit s t statusReg 0 true .statusIE ∧
      onlyGpr s t (xLat s.cfg ry) (readCp0 s statusReg) ∧ t.draws = s.draws)

/-- O41. DMT and EMT in both forms with coprocessor 0 access and the MT Module: the bit TE
changes, its old value is pending, the `ry` forms return the old VPEControl, whose bit TE is left
open while a changed TE is pending (R162, R163, R168, R169, R173). The place of TE is PRESUMED
(log 4), the open bit inside a hazard window decision D26 (log 18). -/
def Obligations.DmtEmtResults : Prop :=
  ∀ (s : State) (ry : RegField), cop0Sure s → s.cfg.hasMT = true →
    (∃ t, exec .dmt s = .next t ∧ ChangesBit s t vpeControlReg 15 false .vpeControlTE ∧
      ∀ r, readGpr t r = readGpr s r) ∧
    (∃ t v, exec (.dmtRy ry) s = .next t ∧ ChangesBit s t vpeControlReg 15 false .vpeControlTE ∧
      onlyGpr s t (xLat s.cfg ry) v ∧
      ∀ k < 32, (k = 15 → hazardOpen s .vpeControlTE = false) →
        v.getLsbD k = (readCp0 s vpeControlReg).getLsbD k) ∧
    (∃ t, exec .emt s = .next t ∧ ChangesBit s t vpeControlReg 15 true .vpeControlTE ∧
      ∀ r, readGpr t r = readGpr s r) ∧
    (∃ t v, exec (.emtRy ry) s = .next t ∧ ChangesBit s t vpeControlReg 15 true .vpeControlTE ∧
      onlyGpr s t (xLat s.cfg ry) v ∧
      ∀ k < 32, (k = 15 → hazardOpen s .vpeControlTE = false) →
        v.getLsbD k = (readCp0 s vpeControlReg).getLsbD k)

/-- O42. DVPE and EVPE in both forms with coprocessor 0 access and the MT Module: EVP changes on
a Master VPE and stays on any other; the `ry` forms return the old MVPControl in either case, its
bit EVP left open while a changed EVP is pending (R164, R165, R170, R171, R173). The places of
EVP and MVP are PRESUMED (log 4); the open bit is D26, and that a VPE that is no master makes a
hazard entry too follows R172 (log 18). -/
def Obligations.DvpeEvpeResults : Prop :=
  ∀ (s : State) (ry : RegField), cop0Sure s → s.cfg.hasMT = true →
    let now := (readCp0 s mvpControlReg).getLsbD 0
    let off := if masterVpe s then false else now
    let on := if masterVpe s then true else now
    (∃ t, exec .dvpe s = .next t ∧ ChangesBit s t mvpControlReg 0 off .mvpControlEVP ∧
      ∀ r, readGpr t r = readGpr s r) ∧
    (∃ t v, exec (.dvpeRy ry) s = .next t ∧ ChangesBit s t mvpControlReg 0 off .mvpControlEVP ∧
      onlyGpr s t (xLat s.cfg ry) v ∧
      ∀ k < 32, (k = 0 → hazardOpen s .mvpControlEVP = false) →
        v.getLsbD k = (readCp0 s mvpControlReg).getLsbD k) ∧
    (∃ t, exec .evpe s = .next t ∧ ChangesBit s t mvpControlReg 0 on .mvpControlEVP ∧
      ∀ r, readGpr t r = readGpr s r) ∧
    (∃ t v, exec (.evpeRy ry) s = .next t ∧ ChangesBit s t mvpControlReg 0 on .mvpControlEVP ∧
      onlyGpr s t (xLat s.cfg ry) v ∧
      ∀ k < 32, (k = 0 → hazardOpen s .mvpControlEVP = false) →
        v.getLsbD k = (readCp0 s mvpControlReg).getLsbD k)

/-- O43. Without coprocessor 0 access each of the fifteen forms that test it raises Coprocessor
Unusable, before any other exception (R265, R280, R281 a). That it comes first is decision D23,
the place of CU0 PRESUMED (log 4). -/
def Obligations.CoprocessorUnusable : Prop :=
  ∀ (i : Instr) (s : State), needsCop0 i = true → cop0Denied s →
    exec i s = .fault (.trap (.coprocessorUnusable 0))

/-- O44. With coprocessor 0 access and no MT Module the eight MT forms raise Reserved Instruction
(R271). -/
def Obligations.ReservedWithoutMt : Prop :=
  ∀ (i : Instr) (s : State), needsMT i = true → cop0Sure s → s.cfg.hasMT = false →
    exec i s = .fault (.trap .reservedInstruction)

/-- O45. MFC0 with coprocessor 0 access: the register as stored, but for Count and for a bit a
pending hazard leaves open; of a register that does not exist it is UNDEFINED before Release 6
and 0 from it on (R174, R173, R285). The numbers of the registers but three and the places of TE
and EVP are PRESUMED (log 4), the open reads decisions D14 and D26 (logs 18 and 19); that MFC0
never ends in Reserved Instruction is decision D31 (R271, log 30, DESIGN CHOICE). -/
def Obligations.Mfc0Results : Prop :=
  ∀ (s : State) (ry : RegField) (r32 : BitVec 5) (sel : BitVec 3), cop0Sure s →
    if cp0Implemented s.cfg ⟨r32, sel⟩ then
      ∃ t v, exec (.mfc0 ry r32 sel) s = .next t ∧ t.pc = s.pc + 4#32 ∧
        onlyGpr s t (xLat s.cfg ry) v ∧ (∀ q, readByte t.mem q = readByte s.mem q) ∧
        t = { s with gpr := t.gpr, pc := t.pc, draws := t.draws } ∧
        ((⟨r32, sel⟩ : Cp0Reg) ≠ countReg → ∀ k < 32,
          ((⟨r32, sel⟩ : Cp0Reg) = vpeControlReg → k = 15 →
            hazardOpen s .vpeControlTE = false) →
          ((⟨r32, sel⟩ : Cp0Reg) = mvpControlReg → k = 0 →
            hazardOpen s .mvpControlEVP = false) →
          v.getLsbD k = (readCp0 s ⟨r32, sel⟩).getLsbD k)
    else if 6 ≤ s.cfg.archRevision then
      ∃ t, exec (.mfc0 ry r32 sel) s = .next t ∧ WritesRegister s t (xLat s.cfg ry) 0#32
    else exec (.mfc0 ry r32 sel) s = .fault (.undefined .mfc0NoRegister)

/-- O46. MTC0 with coprocessor 0 access: the writable bits of the register take those of the
source, the others keep theirs, LLAddr and BadVAddr are read-only; a write that changes
Status.CU0 makes its old value pending, no other write touches the hazards; an address whose
access type K0, KU or K23 of Config programs has that of the code then stored there (R41, R66); a
register that does not exist is UNDEFINED (R175, R177). The write mask is decision D13 (log 29),
the places of LLAddr, BadVAddr, CU0 and the fields of Config PRESUMED (log 4), the access types
of their codes a parameter (log 21); that MTC0 never ends in Reserved Instruction is decision D31
(R271, log 30, DESIGN CHOICE). -/
def Obligations.Mtc0Results : Prop :=
  ∀ (s : State) (ry : RegField) (r32 : BitVec 5) (sel : BitVec 3), cop0Sure s →
    let r : Cp0Reg := ⟨r32, sel⟩
    let old := (readCp0 s statusReg).getLsbD 28
    if cp0Implemented s.cfg r then
      ∃ t, exec (.mtc0 ry r32 sel) s = .next t ∧ t.pc = s.pc + 4#32 ∧
        (∀ g, readGpr t g = readGpr s g) ∧ (∀ q, readByte t.mem q = readByte s.mem q) ∧
        (∀ k < 32, (readCp0 t r).getLsbD k =
          if (writeMask s.cfg r).getLsbD k then (readGpr s (xLat s.cfg ry)).getLsbD k
          else (readCp0 s r).getLsbD k) ∧
        (r = llAddrReg ∨ r = badVAddrReg → readCp0 t r = readCp0 s r) ∧
        otherCp0 s t r ∧
        (∀ h, h ∈ t.hazards ↔ h ∈ s.hazards ∨
          (h = (.statusCU0, old) ∧ (readCp0 t statusReg).getLsbD 28 ≠ old)) ∧
        (∀ source low, (source, low) ∈ [(CcaSource.k0, 0), (.ku, 25), (.k23, 28)] →
          ∀ kind v frame,
            (transEntry s.cfg s.privileged kind v).result = .map frame source →
            ∃ a, translate t kind v = .ok a ∧
              a.cca = s.cfg.ccaOfCode[((readCp0 t configReg).extractLsb' low 3).toFin]) ∧
        t = { s with cp0 := t.cp0, pc := t.pc, hazards := t.hazards }
    else exec (.mtc0 ry r32 sel) s = .fault (.undefined .mtc0NoRegister)

/-- O47. The hazard window of DMT (R173, R190): an MFC0 of VPEControl directly after it may read
either TE, every other bit as stored; with an EHB between, it reads TE as 0 for certain. The
destination is not register 0, which R22's map never names. The open read is decision D26 (log
18), the place of TE PRESUMED (log 4). -/
def Obligations.EhbClosesDmtWindow : Prop :=
  ∀ (s : State) (ry : RegField), cop0Sure s → s.cfg.hasMT = true →
    xLat s.cfg ry ≠ 0 → cp0Implemented s.cfg vpeControlReg = true →
    ∃ t u v w, exec .dmt s = .next t ∧ exec (.mfc0 ry 1#5 1#3) t = .next u ∧
      exec .ehb t = .next v ∧ exec (.mfc0 ry 1#5 1#3) v = .next w ∧
      (∀ k < 32, k ≠ 15 →
        (readGpr u (xLat s.cfg ry)).getLsbD k = (readCp0 s vpeControlReg).getLsbD k) ∧
      ∀ k < 32, (readGpr w (xLat s.cfg ry)).getLsbD k =
        if k = 15 then false else (readCp0 s vpeControlReg).getLsbD k

/-- O48. RDHWR (R178): where the register exists and access is allowed, the destination takes the
value of R44 (left open for Count and for registers 30 and 31) and nothing else changes;
otherwise Reserved Instruction. The places of HWREna's bits, CPUNum and XNP are PRESUMED (log 4),
the open values decision D14 (log 19). -/
def Obligations.RdhwrResults : Prop :=
  ∀ (s : State) (ry : RegField) (n : BitVec 5),
    let present : Bool := match n.toNat with
      | 0 | 1 | 2 | 3 | 5 => true
      | 29 => s.cfg.hwr29
      | 30 => s.cfg.hwr30
      | 31 => s.cfg.hwr31
      | _ => false
    let enabled := (readCp0 s hwrEnaReg).getLsbD n.toNat
    (present = true → cop0Sure s ∨ enabled = true →
      ∃ t v, exec (.rdhwr ry n) s = .next t ∧ t.pc = s.pc + 4#32 ∧ onlyGpr s t (xLat s.cfg ry) v ∧
        (∀ q, readByte t.mem q = readByte s.mem q) ∧
        t = { s with gpr := t.gpr, pc := t.pc, draws := t.draws } ∧
        (n = 0#5 → v = ((readCp0 s eBaseReg).extractLsb' 0 10).zeroExtend 32) ∧
        (n = 1#5 → v = s.cfg.synciStep) ∧
        (n = 3#5 → v = s.cfg.countResolution) ∧
        (n = 5#5 → v = if (readCp0 s config5Reg).getLsbD 13 then 1#32 else 0#32) ∧
        (n = 29#5 → v = readCp0 s userLocalReg)) ∧
    (present = false → exec (.rdhwr ry n) s = .fault (.trap .reservedInstruction)) ∧
    (cop0Denied s → enabled = false →
      exec (.rdhwr ry n) s = .fault (.trap .reservedInstruction))

/-! ## Barriers and waiting -/

/-- O49. EHB clears every pending hazard and changes nothing else but the pc; after it no read of
a field is open, and coprocessor 0 access follows the stored Status.CU0 (R190). The place of CU0
is PRESUMED (log 4), the cell `Privileged` decision D25 (log 29). -/
def Obligations.EhbResult : Prop :=
  ∀ s : State, ∃ t, exec .ehb s = .next t ∧
    t = { s with pc := s.pc + 4#32, hazards := [] } ∧
    (∀ f, hazardOpen t f = false) ∧
    cop0Enabled t = (s.privileged || (readCp0 s statusReg).getLsbD 28)

/-- O50. PAUSE (R192): with `LLbit` 0 only the pc moves; with `LLbit` 1 the stream is blocked at
the PAUSE, nothing changed but EPC, which, where it exists, keeps its value or holds the resume
address. The register EPC as what PAUSE may set is decision D32, and a blocked state that the
next steps poll the model's choice (log 13). -/
def Obligations.PauseResult : Prop :=
  ∀ s : State, s.inDelaySlot = false →
    (s.llBit = false → exec .pause s = .next { s with pc := s.pc + 4#32 }) ∧
    (s.llBit = true → ∃ t, exec .pause s = .next t ∧ t.waiting = true ∧ t.pc = s.pc ∧
      otherCp0 s t epcReg ∧
      (readCp0 t epcReg = readCp0 s epcReg ∨
        (cp0Implemented s.cfg epcReg = true ∧ readCp0 t epcReg = s.pc + 4#32)) ∧
      t = { s with cp0 := t.cp0, waiting := true, draws := t.draws })

/-- O51. PAUSE in a delay slot is UNPREDICTABLE, and no instruction creates a delay slot: a
machine outside one never takes that outcome (R193). That the flag of a delay slot is a cell that
no instruction changes, not even one executed with it set, is the model's choice (log 20). -/
def Obligations.PauseInDelaySlot : Prop :=
  (∀ s : State, s.inDelaySlot = true →
    exec .pause s = .fault (.unpredictable .pauseInDelaySlot)) ∧
  (∀ (i : Instr) (s t : State), exec i s = .next t → t.inDelaySlot = s.inDelaySlot) ∧
  ∀ s : State, s.inDelaySlot = false → step s ≠ .fault (.unpredictable .pauseInDelaySlot)

/-- O52. A blocked stream executes nothing (R192): after the events that other agents put before
it, a store that clears `LLbit` among them (R76 item 3), a step resumes it at `pc + 4` or leaves
it blocked; it resumes for certain once `LLbit` is 0, and stays where `LLbit` is 1 and PAUSE does
not resume early. The early resumption is decision D18 (log 13). -/
def Obligations.BlockedStreamWaits : Prop :=
  ∀ s u : State, deliver s = .ok u → u.waiting = true →
    ∃ t, step s = .next t ∧
      (t = { u with draws := t.draws } ∨
        t = { u with waiting := false, pc := u.pc + 4#32, draws := t.draws }) ∧
      (u.llBit = false → t = { u with waiting := false, pc := u.pc + 4#32 }) ∧
      (u.llBit = true → u.cfg.pauseMayResumeEarly = false → t = u)

/-- O53. SYNC completes from every state for every stype and changes nothing but the pc and the
history, where it stands as the barrier `SyncStypeBehaviour` gives its stype: stype 0 and every
one that nothing defines the full completion barrier; an implemented optional stype the columns
of its row of R197; a vendor or reserved stype what the parameter says (R195, R196, R197). The
history as a list of events is the model's form of R198 (log 16). -/
def Obligations.SyncResult : Prop :=
  ∀ (s : State) (n : BitVec 5),
    let optional := [4#5, 16#5, 17#5, 18#5, 19#5]
    let b := syncBarrier s.cfg n
    exec (.sync n) s = .next { s with pc := s.pc + 4#32, history := .barrier b :: s.history } ∧
    (n = 0#5 ∨ (n ∈ optional ∧ n ∉ s.cfg.syncOptional) ∨
        (n ∉ optional ∧ n ∉ s.cfg.syncVendor.map (·.1)) →
      b = { olderLoads := true, olderStores := true, youngerLoads := true, youngerStores := true
            doneLoads := true, doneStores := true }) ∧
    (n ∈ optional → n ∈ s.cfg.syncOptional →
      b = { olderLoads := decide (n ≠ 4#5)
            olderStores := decide (n = 4#5 ∨ n = 16#5 ∨ n = 18#5)
            youngerLoads := decide (n = 16#5 ∨ n = 17#5 ∨ n = 19#5)
            youngerStores := decide (n ≠ 19#5)
            doneLoads := false, doneStores := false }) ∧
    (∀ v, n ≠ 0#5 → n ∉ optional →
      s.cfg.syncVendor.find? (fun e => e.1 = n) = some (n, v) → b = v)

/-- O54. The rows of R197 on a system that is not strongly ordered: of two accesses that the
barrier affects, the older is ordered before the younger by an implemented optional stype exactly
as its columns A and B say, and by stype 0 always; with nothing between, not at all. Stype 0, and
an optional stype that is not implemented, completes the older access before the younger is
performed with respect to any agent (column C); an implemented one completes nothing. On a
strongly ordered system the pair is ordered with no SYNC between, and no stype changes that
(R73). The reading of the columns as constraints on pairs is R198's own inference, that strong
ordering spans different access types the model's choice (log 16). -/
def Obligations.SyncOrdersItsRow : Prop :=
  ∀ (cfg : Config) (j k : AccessKind) (bs ds : List Nat) (c d : Cca),
    barrierAffects c = true → barrierAffects d = true → j ≠ .fetch → k ≠ .fetch →
    let ordered := fun n : BitVec 5 =>
      orderedBefore cfg (.access j bs c) (.access k ds d) [.barrier (syncBarrier cfg n)]
    let completed := fun n : BitVec 5 =>
      completedBefore cfg (.access j bs c) (.access k ds d) [.barrier (syncBarrier cfg n)]
    let unseparated := orderedBefore cfg (.access j bs c) (.access k ds d) []
    (cfg.stronglyOrdered = true →
      unseparated = true ∧ ∀ n, ordered n = unseparated ∧ completed n = false) ∧
    (cfg.stronglyOrdered = false →
      ordered 0#5 = true ∧
      (4#5 ∈ cfg.syncOptional → ordered 4#5 = (countsAsStore j && countsAsStore k)) ∧
      (16#5 ∈ cfg.syncOptional → ordered 16#5 = true) ∧
      (17#5 ∈ cfg.syncOptional → ordered 17#5 = countsAsLoad j) ∧
      (18#5 ∈ cfg.syncOptional → ordered 18#5 = countsAsStore k) ∧
      (19#5 ∈ cfg.syncOptional → ordered 19#5 = (countsAsLoad j && countsAsLoad k)) ∧
      unseparated = false ∧ completed 0#5 = true ∧
      ∀ n ∈ [4#5, 16#5, 17#5, 18#5, 19#5], completed n = !(cfg.syncOptional.contains n))

/-- O55. SYNC between two stores orders them (R195, R198, the writer of the document's example):
after SW, SYNC 0, SW on a system that is not strongly ordered, where both stores have an access
type the barrier affects, the first is performed with respect to every other agent before the
second is performed with respect to any, at whatever times the rules admit; on a strongly ordered
system, where SYNC is a NOP, every other agent sees them in program order (R73). That every
location counts as shared memory, and that strong ordering spans different access types, is the
model's choice (log 16). The memory history is the model's form of R198 (log 16). -/
def Obligations.SyncOrdersTwoStores : Prop :=
  ∀ (s t u w : State) (rx rz : RegField) (i j : BitVec 16),
    exec (.sw rx i) s = .next t → exec (.sync 0#5) t = .next u → exec (.sw rz j) u = .next w →
    ∃ bs c b ds d, w.history =
        .access .store ds d :: .barrier b :: .access .store bs c :: s.history ∧
      ∀ (agents : List Nat) (time : Nat → Nat → Nat), Admitted s.cfg w.history agents time →
        (s.cfg.stronglyOrdered = false → barrierAffects c = true → barrierAffects d = true →
          ∀ p ∈ agents, ∀ q ∈ agents,
            time s.history.length p < time (s.history.length + 2) q) ∧
        (s.cfg.stronglyOrdered = true →
          ∀ p ∈ agents, time s.history.length p < time (s.history.length + 2) p)

/-! ## Cache and prefetch -/

/-- O56. CACHE completes where coprocessor 0 access is enabled, the address translates and the
parameter gives the operation an effect in a use that R153 does not exclude: memory and registers
stay, an open sequence is tainted, and Index Load Tag changes only the four tag and data
registers, also where the parameter speaks of a Cache Error (R150, R151). The instance of CacheOp
is a parameter: decision D16 (log 14). -/
def Obligations.CacheResult : Prop :=
  ∀ (s : State) (op : BitVec 5) (imm : BitVec 9) (rx : RegField) (a : Access),
    cop0Sure s →
    translate s .cacheop (readGpr s (xLat s.cfg rx) + imm.signExtend 32) = .ok a →
    (16 ≤ op.toNat → a.cca.cached = true) → mayHitOwnLine s op a = false →
    (s.cfg.cacheOp[op.toFin] = .keep →
      exec (.cache op imm rx) s = .next
        { s with
          pc := s.pc + 4#32
          llTaint := s.llTaint || s.llBit
          history := .access .cacheop [a.pAddr] a.cca :: s.history }) ∧
    (s.cfg.cacheOp[op.toFin] = .loadTag ∨
        (s.cfg.cacheOp[op.toFin] = .cacheError ∧ 4 ≤ op.toNat ∧ op.toNat ≤ 7) →
      ∃ t, exec (.cache op imm rx) s = .next t ∧ t.pc = s.pc + 4#32 ∧
        t.llTaint = (s.llTaint || s.llBit) ∧
        t.history = .access .cacheop [a.pAddr] a.cca :: s.history ∧
        (∀ q, readByte t.mem q = readByte s.mem q) ∧ (∀ g, readGpr t g = readGpr s g) ∧
        (∀ r, r ∉ [tagLoReg, tagHiReg, dataLoReg, dataHiReg] → readCp0 t r = readCp0 s r) ∧
        (∀ r ∈ [dataLoReg, dataHiReg], cp0Implemented s.cfg r = false →
          readCp0 t r = readCp0 s r) ∧
        t = { s with pc := t.pc, cp0 := t.cp0, llTaint := t.llTaint, history := t.history
                     draws := t.draws })

/-- O57. What CACHE does where it does not complete: a translation's exception; a refusal where
the parameter is absent, UNDEFINED for a combination that is not implemented; else, whatever the
parameter says, UNDEFINED for an address operation on an uncacheable address, then UNPREDICTABLE
where the operation may invalidate the line of the CACHE itself; then Bus Error, Cache Error or a
refusal as the parameter says, never a Cache Error for Index Load Tag and Index Store Tag (R150,
R151, R152, R153). An invalidation by address of a byte of the CACHE itself is such a use, and so
is every invalidation of the instruction cache where its line size and index function are
unknown. The parameter is decision D16; the order of the two rows of R153 and the test of the own
line are the model's (log 14). -/
def Obligations.CacheOutcomes : Prop :=
  ∀ (s : State) (op : BitVec 5) (imm : BitVec 9) (rx : RegField), cop0Sure s →
    let v := readGpr s (xLat s.cfg rx) + imm.signExtend 32
    let effect := s.cfg.cacheOp[op.toFin]
    let tagOp := 4 ≤ op.toNat ∧ op.toNat ≤ 11
    (∀ e, translate s .cacheop v = .error e → exec (.cache op imm rx) s = .fault (.trap e)) ∧
    (tagOp → exec (.cache op imm rx) s ≠ .fault (.trap .cacheError)) ∧
    ∀ a, translate s .cacheop v = .ok a →
      (effect = .absent → exec (.cache op imm rx) s = .refused .cacheOpNotModelled) ∧
      (effect = .notImplemented →
        exec (.cache op imm rx) s = .fault (.undefined .cacheCombination)) ∧
      (effect ≠ .absent → effect ≠ .notImplemented →
        (16 ≤ op.toNat → a.cca.cached = false →
          exec (.cache op imm rx) s = .fault (.undefined .cacheUncached)) ∧
        ((16 ≤ op.toNat → a.cca.cached = true) →
          (mayHitOwnLine s op a = true →
            exec (.cache op imm rx) s = .fault (.unpredictable .cacheOwnLine)) ∧
          (mayHitOwnLine s op a = false →
            (effect = .refuse ∨ (effect = .cacheError ∧ 8 ≤ op.toNat ∧ op.toNat ≤ 11) →
              exec (.cache op imm rx) s = .refused .cacheOpNotModelled) ∧
            (effect = .busError → exec (.cache op imm rx) s = .fault (.trap .busError)) ∧
            (effect = .cacheError → ¬ tagOp →
              exec (.cache op imm rx) s = .fault (.trap .cacheError))))) ∧
      (op ∈ [16#5, 17#5, 18#5, 19#5, 21#5, 22#5, 23#5] →
        (∃ k < 4, ∃ own, translate s .fetch (s.pc + BitVec.ofNat 32 k) = .ok own ∧
          own.pAddr = a.pAddr) → mayHitOwnLine s op a = true) ∧
      (op = 0#5 ∨ op = 16#5 → s.cfg.iGeometry = none → mayHitOwnLine s op a = true)

/-- O58. PREF with any hint but 30, and with hint 30 on an address that does not translate or is
uncached, completes from every state: only the pc, the taint of an open sequence and, for a
cached address, the history change; no addressing exception is raised (R155, R157). That it
raises neither Bus Error nor Cache Error is decision D27 (log 15). -/
def Obligations.PrefResult : Prop :=
  ∀ (s : State) (hint : BitVec 5) (imm : BitVec 9) (rx : RegField),
    s.cfg.archRevision < 6 ∨ hint.toNat < 24 →
    let r := translate s .pref (readGpr s (xLat s.cfg rx) + imm.signExtend 32)
    ((∃ e, r = .error e) ∨ (∃ a, r = .ok a ∧ a.cca.cached = false) →
      exec (.pref hint imm rx) s =
        .next { s with pc := s.pc + 4#32, llTaint := s.llTaint || s.llBit }) ∧
    (∀ a, r = .ok a → a.cca.cached = true → hint ≠ 30#5 →
      exec (.pref hint imm rx) s =
        .next { s with
          pc := s.pc + 4#32
          llTaint := s.llTaint || s.llBit
          history := .access .pref [a.pAddr] a.cca :: s.history })

/-- O59. PREF hint 30 before Release 6 (R156), on a cached address with a known line size whose
line can be written: the line is in the cache and nothing changes but the taint of an open
sequence, or every byte of the aligned line becomes zero as a store of this processor, which
clears `LLbit` by the rule for stores and taints a sequence that stays open; no other byte and no
register changes, and which of the two happens is left open. The draw of hit or miss is decision
D27, the line size a parameter; that a zeroed line is a store for the link and the history is the
model's reading (log 15). -/
def Obligations.PrepareForStoreResult : Prop :=
  ∀ (s : State) (imm : BitVec 9) (rx : RegField) (a : Access) (n : Nat),
    let line := a.pAddr / 2 ^ n * 2 ^ n
    let bytes := (List.range (2 ^ n)).map (line + ·)
    s.cfg.archRevision < 6 → Memory.wf s.mem = true → s.cfg.cacheLineLog2 = some n →
    translate s .pref (readGpr s (xLat s.cfg rx) + imm.signExtend 32) = .ok a →
    a.cca.cached = true →
    (∀ k < 2 ^ n, populated s.cfg (line + k) = true ∧ inText s.cfg (line + k) = false) →
    typeConflict s bytes a.cca = false →
    ∃ t, exec (.pref 30#5 imm rx) s = .next t ∧ t.pc = s.pc + 4#32 ∧ t.draws = s.draws + 1 ∧
      (∀ g, readGpr t g = readGpr s g) ∧
      (∀ q, q < line ∨ line + 2 ^ n ≤ q → readByte t.mem q = readByte s.mem q) ∧
      (((∀ q, readByte t.mem q = readByte s.mem q) ∧ t.llBit = s.llBit ∧
          t.llTaint = (s.llTaint || s.llBit) ∧
          t.history = .access .pref [a.pAddr] a.cca :: s.history) ∨
        ((∀ k < 2 ^ n, readByte t.mem (line + k) = 0#8) ∧
          (t.llBit = true ↔ s.llBit = true ∧ ¬ ((∃ k < 2 ^ n, inLinkBlock s (line + k) = true) ∧
            a.cca.coherent = true ∧ config5LLB s = true)) ∧
          (t.llTaint = true ↔ s.llTaint = true ∨ t.llBit = true) ∧
          t.history =
            .access .pref [a.pAddr] a.cca :: .access .store bytes a.cca :: s.history)) ∧
      t = { s with pc := t.pc, mem := t.mem, llBit := t.llBit, llTaint := t.llTaint
                   history := t.history, draws := t.draws }

/-- O60. From Release 6 on, PREF with hints 24 to 31 raises Reserved Instruction (R157). That
Release 6 is a parameter is decision D11 (log 12). -/
def Obligations.PrefReservedHints : Prop :=
  ∀ (s : State) (hint : BitVec 5) (imm : BitVec 9) (rx : RegField),
    6 ≤ s.cfg.archRevision → 24 ≤ hint.toNat →
    exec (.pref hint imm rx) s = .fault (.trap .reservedInstruction)
end

