-- ==== Sys2Proof/Laws/Memory.lean ====
section
/-! SUPPORT. The laws of memory: every write keeps the canonical form, and a byte read after a write
is the byte written there or the byte read before. -/

namespace Sys2Proof.Machine

@[simp] theorem Memory.wfFrom_nil (lo : Nat) : Memory.wfFrom lo [] = true := rfl

@[simp] theorem Memory.wfFrom_cons (lo : Nat) (c : Host.Cell) (m : List Host.Cell) :
    Memory.wfFrom lo (c :: m) = true ↔
      lo ≤ c.1 ∧ c.2 ≠ unlistedByte ∧ Memory.wfFrom (c.1 + 1) m = true := by
  simp [Memory.wfFrom, and_assoc]

theorem Memory.wfFrom_mono {lo hi : Nat} (h : lo ≤ hi) {m : List Host.Cell}
    (hm : Memory.wfFrom hi m = true) : Memory.wfFrom lo m = true := by
  cases m with
  | nil => rfl
  | cons c m =>
    obtain ⟨h1, h2, h3⟩ := (Memory.wfFrom_cons ..).mp hm
    exact (Memory.wfFrom_cons ..).mpr ⟨h.trans h1, h2, h3⟩

/-- A byte below every listed address reads as an unlisted one. -/
theorem readByte_below {lo a : Nat} {m : List Host.Cell} (hm : Memory.wfFrom lo m = true)
    (h : a < lo) : readByte m a = unlistedByte := by
  induction m generalizing lo with
  | nil => rfl
  | cons c m ih =>
    obtain ⟨h1, -, h3⟩ := (Memory.wfFrom_cons ..).mp hm
    have hne : ¬ c.1 = a := by omega
    simpa [readByte, hne] using ih h3 (by omega)

/-- A write keeps the canonical form. -/
theorem writeByte_wfFrom {lo a : Nat} (b : Byte) {m : List Host.Cell}
    (hm : Memory.wfFrom lo m = true) (h : lo ≤ a) : Memory.wfFrom lo (writeByte m a b) = true := by
  induction m generalizing lo with
  | nil =>
    unfold writeByte
    split
    · rfl
    · simp_all
  | cons c m ih =>
    obtain ⟨h1, h2, h3⟩ := (Memory.wfFrom_cons ..).mp hm
    unfold writeByte
    split
    · split
      · exact hm
      · rename_i hlt hb
        exact (Memory.wfFrom_cons ..).mpr
          ⟨h, hb, (Memory.wfFrom_cons ..).mpr ⟨by simp only; omega, h2, h3⟩⟩
    · split
      · split
        · exact Memory.wfFrom_mono (by omega) h3
        · rename_i hlt heq hb
          exact (Memory.wfFrom_cons ..).mpr ⟨h, hb, by simpa [heq] using h3⟩
      · exact (Memory.wfFrom_cons ..).mpr ⟨h1, h2, ih h3 (by omega)⟩

theorem writeByte_wf (a : Nat) (b : Byte) {m : List Host.Cell} (hm : Memory.wf m = true) :
    Memory.wf (writeByte m a b) = true :=
  writeByte_wfFrom b hm (Nat.zero_le a)

theorem writeBytes_wf (cells : List (Nat × Byte)) {m : List Host.Cell} (hm : Memory.wf m = true) :
    Memory.wf (writeBytes m cells) = true := by
  induction cells generalizing m with
  | nil => exact hm
  | cons c cs ih => exact ih (writeByte_wf c.1 c.2 hm)

theorem readByte_writeByte_from {lo : Nat} (a q : Nat) (b : Byte) {m : List Host.Cell}
    (hm : Memory.wfFrom lo m = true) :
    readByte (writeByte m a b) q = if q = a then b else readByte m q := by
  induction m generalizing lo with
  | nil =>
    by_cases hq : q = a <;> by_cases hb : b = unlistedByte <;>
      simp_all [writeByte, readByte, eq_comm]
  | cons c m ih =>
    obtain ⟨h1, h2, h3⟩ := (Memory.wfFrom_cons ..).mp hm
    have hlow : a < c.1 + 1 → readByte m a = unlistedByte := readByte_below h3
    unfold writeByte
    split
    · rename_i hlt
      have hca : ¬ c.1 = a := by omega
      have hz : readByte m a = unlistedByte := hlow (by omega)
      split
      · rename_i hb
        by_cases hq : q = a
        · subst hq
          simp [readByte, hca, hz, hb]
        · simp [hq]
      · by_cases hq : q = a
        · simp [readByte, hq]
        · have haq : ¬ a = q := fun h => hq h.symm
          simp [readByte, hq, haq]
    · split
      · rename_i hlt heq
        have hz : readByte m a = unlistedByte := hlow (by omega)
        split
        · by_cases hq : q = a
          · simp_all
          · have hcq : ¬ c.1 = q := by omega
            simp [readByte, hq, hcq]
        · by_cases hq : q = a
          · simp [readByte, hq]
          · have hcq : ¬ c.1 = q := by omega
            have haq : ¬ a = q := by omega
            simp [readByte, hq, hcq, haq]
      · rename_i hlt hne
        by_cases hcq : c.1 = q
        · have hqa : ¬ q = a := by omega
          simp [readByte, hcq, hqa]
        · simp [readByte, hcq, ih h3]

/-- A byte read after a write: the byte written, or what was there. -/
theorem readByte_writeByte (a q : Nat) (b : Byte) {m : List Host.Cell} (hm : Memory.wf m = true) :
    readByte (writeByte m a b) q = if q = a then b else readByte m q :=
  readByte_writeByte_from a q b hm

/-- A byte outside the cells written reads as before. -/
theorem readByte_writeBytes_outside (cells : List (Nat × Byte)) {q : Nat} {m : List Host.Cell}
    (hm : Memory.wf m = true) (hq : q ∉ cells.map (·.1)) :
    readByte (writeBytes m cells) q = readByte m q := by
  induction cells generalizing m with
  | nil => rfl
  | cons c cs ih =>
    simp only [List.map_cons, List.mem_cons, not_or] at hq
    show readByte (writeBytes (writeByte m c.1 c.2) cs) q = readByte m q
    rw [ih (writeByte_wf c.1 c.2 hm) hq.2, readByte_writeByte _ _ _ hm, if_neg hq.1]

/-- A byte of cells with distinct addresses reads as the byte written. -/
theorem readByte_writeBytes_inside (cells : List (Nat × Byte)) {m : List Host.Cell}
    (hm : Memory.wf m = true) (hd : (cells.map (·.1)).Nodup) {c : Nat × Byte} (hc : c ∈ cells) :
    readByte (writeBytes m cells) c.1 = c.2 := by
  induction cells generalizing m with
  | nil => cases hc
  | cons d cs ih =>
    obtain ⟨hnot, hd'⟩ := List.nodup_cons.mp hd
    show readByte (writeBytes (writeByte m d.1 d.2) cs) c.1 = c.2
    rcases List.mem_cons.mp hc with rfl | h
    · rw [readByte_writeBytes_outside _ (writeByte_wf _ _ hm) hnot, readByte_writeByte _ _ _ hm,
        if_pos rfl]
    · exact ih (writeByte_wf _ _ hm) hd' h

/-- The memory of the reset state has the canonical form. -/
theorem reset_memory_wf : Memory.wf State.reset.mem = true := rfl

end Sys2Proof.Machine
end

