-- ==== Sys2Proof/Laws/State.lean ====
section
/-! SUPPORT. What each update of the state leaves in each field, so that no proof unfolds an update. -/

namespace Sys2Proof.Machine

/-! ## `advance` -/

@[simp] theorem advance_gpr (s : State) : (advance s).gpr = s.gpr := rfl
@[simp] theorem advance_pc (s : State) : (advance s).pc = s.pc + 4#32 := rfl
@[simp] theorem advance_cp0 (s : State) : (advance s).cp0 = s.cp0 := rfl
@[simp] theorem advance_privileged (s : State) : (advance s).privileged = s.privileged := rfl
@[simp] theorem advance_inDelaySlot (s : State) : (advance s).inDelaySlot = s.inDelaySlot := rfl
@[simp] theorem advance_waiting (s : State) : (advance s).waiting = s.waiting := rfl
@[simp] theorem advance_llBit (s : State) : (advance s).llBit = s.llBit := rfl
@[simp] theorem advance_llSeen (s : State) : (advance s).llSeen = s.llSeen := rfl
@[simp] theorem advance_llAddr (s : State) : (advance s).llAddr = s.llAddr := rfl
@[simp] theorem advance_llTaint (s : State) : (advance s).llTaint = s.llTaint := rfl
@[simp] theorem advance_llLo (s : State) : (advance s).llLo = s.llLo := rfl
@[simp] theorem advance_llHi (s : State) : (advance s).llHi = s.llHi := rfl
@[simp] theorem advance_hazards (s : State) : (advance s).hazards = s.hazards := rfl
@[simp] theorem advance_mem (s : State) : (advance s).mem = s.mem := rfl
@[simp] theorem advance_history (s : State) : (advance s).history = s.history := rfl
@[simp] theorem advance_env (s : State) : (advance s).env = s.env := rfl
@[simp] theorem advance_draws (s : State) : (advance s).draws = s.draws := rfl
@[simp] theorem advance_cfg (s : State) : (advance s).cfg = s.cfg := rfl

/-! ## `writeGpr` -/

@[simp] theorem writeGpr_pc (s : State) (n : RegNum) (v : Word) : (writeGpr s n v).pc = s.pc := rfl
@[simp] theorem writeGpr_cp0 (s : State) (n : RegNum) (v : Word) : (writeGpr s n v).cp0 = s.cp0 := rfl
@[simp] theorem writeGpr_privileged (s : State) (n : RegNum) (v : Word) : (writeGpr s n v).privileged = s.privileged := rfl
@[simp] theorem writeGpr_inDelaySlot (s : State) (n : RegNum) (v : Word) : (writeGpr s n v).inDelaySlot = s.inDelaySlot := rfl
@[simp] theorem writeGpr_waiting (s : State) (n : RegNum) (v : Word) : (writeGpr s n v).waiting = s.waiting := rfl
@[simp] theorem writeGpr_llBit (s : State) (n : RegNum) (v : Word) : (writeGpr s n v).llBit = s.llBit := rfl
@[simp] theorem writeGpr_llSeen (s : State) (n : RegNum) (v : Word) : (writeGpr s n v).llSeen = s.llSeen := rfl
@[simp] theorem writeGpr_llAddr (s : State) (n : RegNum) (v : Word) : (writeGpr s n v).llAddr = s.llAddr := rfl
@[simp] theorem writeGpr_llTaint (s : State) (n : RegNum) (v : Word) : (writeGpr s n v).llTaint = s.llTaint := rfl
@[simp] theorem writeGpr_llLo (s : State) (n : RegNum) (v : Word) : (writeGpr s n v).llLo = s.llLo := rfl
@[simp] theorem writeGpr_llHi (s : State) (n : RegNum) (v : Word) : (writeGpr s n v).llHi = s.llHi := rfl
@[simp] theorem writeGpr_hazards (s : State) (n : RegNum) (v : Word) : (writeGpr s n v).hazards = s.hazards := rfl
@[simp] theorem writeGpr_mem (s : State) (n : RegNum) (v : Word) : (writeGpr s n v).mem = s.mem := rfl
@[simp] theorem writeGpr_history (s : State) (n : RegNum) (v : Word) : (writeGpr s n v).history = s.history := rfl
@[simp] theorem writeGpr_env (s : State) (n : RegNum) (v : Word) : (writeGpr s n v).env = s.env := rfl
@[simp] theorem writeGpr_draws (s : State) (n : RegNum) (v : Word) : (writeGpr s n v).draws = s.draws := rfl
@[simp] theorem writeGpr_cfg (s : State) (n : RegNum) (v : Word) : (writeGpr s n v).cfg = s.cfg := rfl

/-! ## `writeX` -/

@[simp] theorem writeX_pc (s : State) (f : RegField) (v : Word) : (writeX s f v).pc = s.pc := rfl
@[simp] theorem writeX_cp0 (s : State) (f : RegField) (v : Word) : (writeX s f v).cp0 = s.cp0 := rfl
@[simp] theorem writeX_privileged (s : State) (f : RegField) (v : Word) : (writeX s f v).privileged = s.privileged := rfl
@[simp] theorem writeX_inDelaySlot (s : State) (f : RegField) (v : Word) : (writeX s f v).inDelaySlot = s.inDelaySlot := rfl
@[simp] theorem writeX_waiting (s : State) (f : RegField) (v : Word) : (writeX s f v).waiting = s.waiting := rfl
@[simp] theorem writeX_llBit (s : State) (f : RegField) (v : Word) : (writeX s f v).llBit = s.llBit := rfl
@[simp] theorem writeX_llSeen (s : State) (f : RegField) (v : Word) : (writeX s f v).llSeen = s.llSeen := rfl
@[simp] theorem writeX_llAddr (s : State) (f : RegField) (v : Word) : (writeX s f v).llAddr = s.llAddr := rfl
@[simp] theorem writeX_llTaint (s : State) (f : RegField) (v : Word) : (writeX s f v).llTaint = s.llTaint := rfl
@[simp] theorem writeX_llLo (s : State) (f : RegField) (v : Word) : (writeX s f v).llLo = s.llLo := rfl
@[simp] theorem writeX_llHi (s : State) (f : RegField) (v : Word) : (writeX s f v).llHi = s.llHi := rfl
@[simp] theorem writeX_hazards (s : State) (f : RegField) (v : Word) : (writeX s f v).hazards = s.hazards := rfl
@[simp] theorem writeX_mem (s : State) (f : RegField) (v : Word) : (writeX s f v).mem = s.mem := rfl
@[simp] theorem writeX_history (s : State) (f : RegField) (v : Word) : (writeX s f v).history = s.history := rfl
@[simp] theorem writeX_env (s : State) (f : RegField) (v : Word) : (writeX s f v).env = s.env := rfl
@[simp] theorem writeX_draws (s : State) (f : RegField) (v : Word) : (writeX s f v).draws = s.draws := rfl
@[simp] theorem writeX_cfg (s : State) (f : RegField) (v : Word) : (writeX s f v).cfg = s.cfg := rfl

/-! ## `writeCp0` -/

@[simp] theorem writeCp0_gpr (s : State) (r : Cp0Reg) (v : Word) : (writeCp0 s r v).gpr = s.gpr := rfl
@[simp] theorem writeCp0_pc (s : State) (r : Cp0Reg) (v : Word) : (writeCp0 s r v).pc = s.pc := rfl
@[simp] theorem writeCp0_privileged (s : State) (r : Cp0Reg) (v : Word) : (writeCp0 s r v).privileged = s.privileged := rfl
@[simp] theorem writeCp0_inDelaySlot (s : State) (r : Cp0Reg) (v : Word) : (writeCp0 s r v).inDelaySlot = s.inDelaySlot := rfl
@[simp] theorem writeCp0_waiting (s : State) (r : Cp0Reg) (v : Word) : (writeCp0 s r v).waiting = s.waiting := rfl
@[simp] theorem writeCp0_llBit (s : State) (r : Cp0Reg) (v : Word) : (writeCp0 s r v).llBit = s.llBit := rfl
@[simp] theorem writeCp0_llSeen (s : State) (r : Cp0Reg) (v : Word) : (writeCp0 s r v).llSeen = s.llSeen := rfl
@[simp] theorem writeCp0_llAddr (s : State) (r : Cp0Reg) (v : Word) : (writeCp0 s r v).llAddr = s.llAddr := rfl
@[simp] theorem writeCp0_llTaint (s : State) (r : Cp0Reg) (v : Word) : (writeCp0 s r v).llTaint = s.llTaint := rfl
@[simp] theorem writeCp0_llLo (s : State) (r : Cp0Reg) (v : Word) : (writeCp0 s r v).llLo = s.llLo := rfl
@[simp] theorem writeCp0_llHi (s : State) (r : Cp0Reg) (v : Word) : (writeCp0 s r v).llHi = s.llHi := rfl
@[simp] theorem writeCp0_hazards (s : State) (r : Cp0Reg) (v : Word) : (writeCp0 s r v).hazards = s.hazards := rfl
@[simp] theorem writeCp0_mem (s : State) (r : Cp0Reg) (v : Word) : (writeCp0 s r v).mem = s.mem := rfl
@[simp] theorem writeCp0_history (s : State) (r : Cp0Reg) (v : Word) : (writeCp0 s r v).history = s.history := rfl
@[simp] theorem writeCp0_env (s : State) (r : Cp0Reg) (v : Word) : (writeCp0 s r v).env = s.env := rfl
@[simp] theorem writeCp0_draws (s : State) (r : Cp0Reg) (v : Word) : (writeCp0 s r v).draws = s.draws := rfl
@[simp] theorem writeCp0_cfg (s : State) (r : Cp0Reg) (v : Word) : (writeCp0 s r v).cfg = s.cfg := rfl

/-! ## `drawn` -/

@[simp] theorem drawn_gpr (s : State) : (drawn s).gpr = s.gpr := rfl
@[simp] theorem drawn_pc (s : State) : (drawn s).pc = s.pc := rfl
@[simp] theorem drawn_cp0 (s : State) : (drawn s).cp0 = s.cp0 := rfl
@[simp] theorem drawn_privileged (s : State) : (drawn s).privileged = s.privileged := rfl
@[simp] theorem drawn_inDelaySlot (s : State) : (drawn s).inDelaySlot = s.inDelaySlot := rfl
@[simp] theorem drawn_waiting (s : State) : (drawn s).waiting = s.waiting := rfl
@[simp] theorem drawn_llBit (s : State) : (drawn s).llBit = s.llBit := rfl
@[simp] theorem drawn_llSeen (s : State) : (drawn s).llSeen = s.llSeen := rfl
@[simp] theorem drawn_llAddr (s : State) : (drawn s).llAddr = s.llAddr := rfl
@[simp] theorem drawn_llTaint (s : State) : (drawn s).llTaint = s.llTaint := rfl
@[simp] theorem drawn_llLo (s : State) : (drawn s).llLo = s.llLo := rfl
@[simp] theorem drawn_llHi (s : State) : (drawn s).llHi = s.llHi := rfl
@[simp] theorem drawn_hazards (s : State) : (drawn s).hazards = s.hazards := rfl
@[simp] theorem drawn_mem (s : State) : (drawn s).mem = s.mem := rfl
@[simp] theorem drawn_history (s : State) : (drawn s).history = s.history := rfl
@[simp] theorem drawn_env (s : State) : (drawn s).env = s.env := rfl
@[simp] theorem drawn_draws (s : State) : (drawn s).draws = s.draws + 1 := rfl
@[simp] theorem drawn_cfg (s : State) : (drawn s).cfg = s.cfg := rfl

/-! ## `record` -/

@[simp] theorem record_gpr (s : State) (e : MemEvent) : (record s e).gpr = s.gpr := rfl
@[simp] theorem record_pc (s : State) (e : MemEvent) : (record s e).pc = s.pc := rfl
@[simp] theorem record_cp0 (s : State) (e : MemEvent) : (record s e).cp0 = s.cp0 := rfl
@[simp] theorem record_privileged (s : State) (e : MemEvent) : (record s e).privileged = s.privileged := rfl
@[simp] theorem record_inDelaySlot (s : State) (e : MemEvent) : (record s e).inDelaySlot = s.inDelaySlot := rfl
@[simp] theorem record_waiting (s : State) (e : MemEvent) : (record s e).waiting = s.waiting := rfl
@[simp] theorem record_llBit (s : State) (e : MemEvent) : (record s e).llBit = s.llBit := rfl
@[simp] theorem record_llSeen (s : State) (e : MemEvent) : (record s e).llSeen = s.llSeen := rfl
@[simp] theorem record_llAddr (s : State) (e : MemEvent) : (record s e).llAddr = s.llAddr := rfl
@[simp] theorem record_llTaint (s : State) (e : MemEvent) : (record s e).llTaint = s.llTaint := rfl
@[simp] theorem record_llLo (s : State) (e : MemEvent) : (record s e).llLo = s.llLo := rfl
@[simp] theorem record_llHi (s : State) (e : MemEvent) : (record s e).llHi = s.llHi := rfl
@[simp] theorem record_hazards (s : State) (e : MemEvent) : (record s e).hazards = s.hazards := rfl
@[simp] theorem record_mem (s : State) (e : MemEvent) : (record s e).mem = s.mem := rfl
@[simp] theorem record_history (s : State) (e : MemEvent) : (record s e).history = e :: s.history := rfl
@[simp] theorem record_env (s : State) (e : MemEvent) : (record s e).env = s.env := rfl
@[simp] theorem record_draws (s : State) (e : MemEvent) : (record s e).draws = s.draws := rfl
@[simp] theorem record_cfg (s : State) (e : MemEvent) : (record s e).cfg = s.cfg := rfl

/-! ## `addHazard` -/

@[simp] theorem addHazard_gpr (s : State) (f : HazardField) (b : Bool) : (addHazard s f b).gpr = s.gpr := rfl
@[simp] theorem addHazard_pc (s : State) (f : HazardField) (b : Bool) : (addHazard s f b).pc = s.pc := rfl
@[simp] theorem addHazard_cp0 (s : State) (f : HazardField) (b : Bool) : (addHazard s f b).cp0 = s.cp0 := rfl
@[simp] theorem addHazard_privileged (s : State) (f : HazardField) (b : Bool) : (addHazard s f b).privileged = s.privileged := rfl
@[simp] theorem addHazard_inDelaySlot (s : State) (f : HazardField) (b : Bool) : (addHazard s f b).inDelaySlot = s.inDelaySlot := rfl
@[simp] theorem addHazard_waiting (s : State) (f : HazardField) (b : Bool) : (addHazard s f b).waiting = s.waiting := rfl
@[simp] theorem addHazard_llBit (s : State) (f : HazardField) (b : Bool) : (addHazard s f b).llBit = s.llBit := rfl
@[simp] theorem addHazard_llSeen (s : State) (f : HazardField) (b : Bool) : (addHazard s f b).llSeen = s.llSeen := rfl
@[simp] theorem addHazard_llAddr (s : State) (f : HazardField) (b : Bool) : (addHazard s f b).llAddr = s.llAddr := rfl
@[simp] theorem addHazard_llTaint (s : State) (f : HazardField) (b : Bool) : (addHazard s f b).llTaint = s.llTaint := rfl
@[simp] theorem addHazard_llLo (s : State) (f : HazardField) (b : Bool) : (addHazard s f b).llLo = s.llLo := rfl
@[simp] theorem addHazard_llHi (s : State) (f : HazardField) (b : Bool) : (addHazard s f b).llHi = s.llHi := rfl
@[simp] theorem addHazard_mem (s : State) (f : HazardField) (b : Bool) : (addHazard s f b).mem = s.mem := rfl
@[simp] theorem addHazard_history (s : State) (f : HazardField) (b : Bool) : (addHazard s f b).history = s.history := rfl
@[simp] theorem addHazard_env (s : State) (f : HazardField) (b : Bool) : (addHazard s f b).env = s.env := rfl
@[simp] theorem addHazard_draws (s : State) (f : HazardField) (b : Bool) : (addHazard s f b).draws = s.draws := rfl
@[simp] theorem addHazard_cfg (s : State) (f : HazardField) (b : Bool) : (addHazard s f b).cfg = s.cfg := rfl

/-! ## `clearHazards` -/

@[simp] theorem clearHazards_gpr (s : State) : (clearHazards s).gpr = s.gpr := rfl
@[simp] theorem clearHazards_pc (s : State) : (clearHazards s).pc = s.pc := rfl
@[simp] theorem clearHazards_cp0 (s : State) : (clearHazards s).cp0 = s.cp0 := rfl
@[simp] theorem clearHazards_privileged (s : State) : (clearHazards s).privileged = s.privileged := rfl
@[simp] theorem clearHazards_inDelaySlot (s : State) : (clearHazards s).inDelaySlot = s.inDelaySlot := rfl
@[simp] theorem clearHazards_waiting (s : State) : (clearHazards s).waiting = s.waiting := rfl
@[simp] theorem clearHazards_llBit (s : State) : (clearHazards s).llBit = s.llBit := rfl
@[simp] theorem clearHazards_llSeen (s : State) : (clearHazards s).llSeen = s.llSeen := rfl
@[simp] theorem clearHazards_llAddr (s : State) : (clearHazards s).llAddr = s.llAddr := rfl
@[simp] theorem clearHazards_llTaint (s : State) : (clearHazards s).llTaint = s.llTaint := rfl
@[simp] theorem clearHazards_llLo (s : State) : (clearHazards s).llLo = s.llLo := rfl
@[simp] theorem clearHazards_llHi (s : State) : (clearHazards s).llHi = s.llHi := rfl
@[simp] theorem clearHazards_hazards (s : State) : (clearHazards s).hazards = [] := rfl
@[simp] theorem clearHazards_mem (s : State) : (clearHazards s).mem = s.mem := rfl
@[simp] theorem clearHazards_history (s : State) : (clearHazards s).history = s.history := rfl
@[simp] theorem clearHazards_env (s : State) : (clearHazards s).env = s.env := rfl
@[simp] theorem clearHazards_draws (s : State) : (clearHazards s).draws = s.draws := rfl
@[simp] theorem clearHazards_cfg (s : State) : (clearHazards s).cfg = s.cfg := rfl

/-! ## `changeField` -/

@[simp] theorem changeField_gpr (s : State) (f : HazardField) (b : Bool) : (changeField s f b).gpr = s.gpr := rfl
@[simp] theorem changeField_pc (s : State) (f : HazardField) (b : Bool) : (changeField s f b).pc = s.pc := rfl
@[simp] theorem changeField_privileged (s : State) (f : HazardField) (b : Bool) : (changeField s f b).privileged = s.privileged := rfl
@[simp] theorem changeField_inDelaySlot (s : State) (f : HazardField) (b : Bool) : (changeField s f b).inDelaySlot = s.inDelaySlot := rfl
@[simp] theorem changeField_waiting (s : State) (f : HazardField) (b : Bool) : (changeField s f b).waiting = s.waiting := rfl
@[simp] theorem changeField_llBit (s : State) (f : HazardField) (b : Bool) : (changeField s f b).llBit = s.llBit := rfl
@[simp] theorem changeField_llSeen (s : State) (f : HazardField) (b : Bool) : (changeField s f b).llSeen = s.llSeen := rfl
@[simp] theorem changeField_llAddr (s : State) (f : HazardField) (b : Bool) : (changeField s f b).llAddr = s.llAddr := rfl
@[simp] theorem changeField_llTaint (s : State) (f : HazardField) (b : Bool) : (changeField s f b).llTaint = s.llTaint := rfl
@[simp] theorem changeField_llLo (s : State) (f : HazardField) (b : Bool) : (changeField s f b).llLo = s.llLo := rfl
@[simp] theorem changeField_llHi (s : State) (f : HazardField) (b : Bool) : (changeField s f b).llHi = s.llHi := rfl
@[simp] theorem changeField_mem (s : State) (f : HazardField) (b : Bool) : (changeField s f b).mem = s.mem := rfl
@[simp] theorem changeField_history (s : State) (f : HazardField) (b : Bool) : (changeField s f b).history = s.history := rfl
@[simp] theorem changeField_env (s : State) (f : HazardField) (b : Bool) : (changeField s f b).env = s.env := rfl
@[simp] theorem changeField_draws (s : State) (f : HazardField) (b : Bool) : (changeField s f b).draws = s.draws := rfl
@[simp] theorem changeField_cfg (s : State) (f : HazardField) (b : Bool) : (changeField s f b).cfg = s.cfg := rfl

/-! ## `noteLoad` -/

@[simp] theorem noteLoad_gpr (s : State) (a : Access) : (noteLoad s a).gpr = s.gpr := rfl
@[simp] theorem noteLoad_pc (s : State) (a : Access) : (noteLoad s a).pc = s.pc := rfl
@[simp] theorem noteLoad_cp0 (s : State) (a : Access) : (noteLoad s a).cp0 = s.cp0 := rfl
@[simp] theorem noteLoad_privileged (s : State) (a : Access) : (noteLoad s a).privileged = s.privileged := rfl
@[simp] theorem noteLoad_inDelaySlot (s : State) (a : Access) : (noteLoad s a).inDelaySlot = s.inDelaySlot := rfl
@[simp] theorem noteLoad_waiting (s : State) (a : Access) : (noteLoad s a).waiting = s.waiting := rfl
@[simp] theorem noteLoad_llBit (s : State) (a : Access) : (noteLoad s a).llBit = s.llBit := rfl
@[simp] theorem noteLoad_llSeen (s : State) (a : Access) : (noteLoad s a).llSeen = s.llSeen := rfl
@[simp] theorem noteLoad_llAddr (s : State) (a : Access) : (noteLoad s a).llAddr = s.llAddr := rfl
@[simp] theorem noteLoad_llLo (s : State) (a : Access) : (noteLoad s a).llLo = s.llLo := rfl
@[simp] theorem noteLoad_llHi (s : State) (a : Access) : (noteLoad s a).llHi = s.llHi := rfl
@[simp] theorem noteLoad_hazards (s : State) (a : Access) : (noteLoad s a).hazards = s.hazards := rfl
@[simp] theorem noteLoad_mem (s : State) (a : Access) : (noteLoad s a).mem = s.mem := rfl
@[simp] theorem noteLoad_history (s : State) (a : Access) : (noteLoad s a).history = s.history := rfl
@[simp] theorem noteLoad_env (s : State) (a : Access) : (noteLoad s a).env = s.env := rfl
@[simp] theorem noteLoad_draws (s : State) (a : Access) : (noteLoad s a).draws = s.draws := rfl
@[simp] theorem noteLoad_cfg (s : State) (a : Access) : (noteLoad s a).cfg = s.cfg := rfl

/-! ## `noteStoreIn` -/

@[simp] theorem noteStoreIn_gpr (s : State) (b c : Bool) : (noteStoreIn s b c).gpr = s.gpr := rfl
@[simp] theorem noteStoreIn_pc (s : State) (b c : Bool) : (noteStoreIn s b c).pc = s.pc := rfl
@[simp] theorem noteStoreIn_cp0 (s : State) (b c : Bool) : (noteStoreIn s b c).cp0 = s.cp0 := rfl
@[simp] theorem noteStoreIn_privileged (s : State) (b c : Bool) : (noteStoreIn s b c).privileged = s.privileged := rfl
@[simp] theorem noteStoreIn_inDelaySlot (s : State) (b c : Bool) : (noteStoreIn s b c).inDelaySlot = s.inDelaySlot := rfl
@[simp] theorem noteStoreIn_waiting (s : State) (b c : Bool) : (noteStoreIn s b c).waiting = s.waiting := rfl
@[simp] theorem noteStoreIn_llAddr (s : State) (b c : Bool) : (noteStoreIn s b c).llAddr = s.llAddr := rfl
@[simp] theorem noteStoreIn_llLo (s : State) (b c : Bool) : (noteStoreIn s b c).llLo = s.llLo := rfl
@[simp] theorem noteStoreIn_llHi (s : State) (b c : Bool) : (noteStoreIn s b c).llHi = s.llHi := rfl
@[simp] theorem noteStoreIn_hazards (s : State) (b c : Bool) : (noteStoreIn s b c).hazards = s.hazards := rfl
@[simp] theorem noteStoreIn_mem (s : State) (b c : Bool) : (noteStoreIn s b c).mem = s.mem := rfl
@[simp] theorem noteStoreIn_history (s : State) (b c : Bool) : (noteStoreIn s b c).history = s.history := rfl
@[simp] theorem noteStoreIn_env (s : State) (b c : Bool) : (noteStoreIn s b c).env = s.env := rfl
@[simp] theorem noteStoreIn_draws (s : State) (b c : Bool) : (noteStoreIn s b c).draws = s.draws := rfl
@[simp] theorem noteStoreIn_cfg (s : State) (b c : Bool) : (noteStoreIn s b c).cfg = s.cfg := rfl

/-! ## `noteStore` -/

@[simp] theorem noteStore_gpr (s : State) (a : Access) : (noteStore s a).gpr = s.gpr := rfl
@[simp] theorem noteStore_pc (s : State) (a : Access) : (noteStore s a).pc = s.pc := rfl
@[simp] theorem noteStore_cp0 (s : State) (a : Access) : (noteStore s a).cp0 = s.cp0 := rfl
@[simp] theorem noteStore_privileged (s : State) (a : Access) : (noteStore s a).privileged = s.privileged := rfl
@[simp] theorem noteStore_inDelaySlot (s : State) (a : Access) : (noteStore s a).inDelaySlot = s.inDelaySlot := rfl
@[simp] theorem noteStore_waiting (s : State) (a : Access) : (noteStore s a).waiting = s.waiting := rfl
@[simp] theorem noteStore_llAddr (s : State) (a : Access) : (noteStore s a).llAddr = s.llAddr := rfl
@[simp] theorem noteStore_llLo (s : State) (a : Access) : (noteStore s a).llLo = s.llLo := rfl
@[simp] theorem noteStore_llHi (s : State) (a : Access) : (noteStore s a).llHi = s.llHi := rfl
@[simp] theorem noteStore_hazards (s : State) (a : Access) : (noteStore s a).hazards = s.hazards := rfl
@[simp] theorem noteStore_mem (s : State) (a : Access) : (noteStore s a).mem = s.mem := rfl
@[simp] theorem noteStore_history (s : State) (a : Access) : (noteStore s a).history = s.history := rfl
@[simp] theorem noteStore_env (s : State) (a : Access) : (noteStore s a).env = s.env := rfl
@[simp] theorem noteStore_draws (s : State) (a : Access) : (noteStore s a).draws = s.draws := rfl
@[simp] theorem noteStore_cfg (s : State) (a : Access) : (noteStore s a).cfg = s.cfg := rfl

/-! ## `taintLink` -/

@[simp] theorem taintLink_gpr (s : State) : (taintLink s).gpr = s.gpr := rfl
@[simp] theorem taintLink_pc (s : State) : (taintLink s).pc = s.pc := rfl
@[simp] theorem taintLink_cp0 (s : State) : (taintLink s).cp0 = s.cp0 := rfl
@[simp] theorem taintLink_privileged (s : State) : (taintLink s).privileged = s.privileged := rfl
@[simp] theorem taintLink_inDelaySlot (s : State) : (taintLink s).inDelaySlot = s.inDelaySlot := rfl
@[simp] theorem taintLink_waiting (s : State) : (taintLink s).waiting = s.waiting := rfl
@[simp] theorem taintLink_llBit (s : State) : (taintLink s).llBit = s.llBit := rfl
@[simp] theorem taintLink_llSeen (s : State) : (taintLink s).llSeen = s.llSeen := rfl
@[simp] theorem taintLink_llAddr (s : State) : (taintLink s).llAddr = s.llAddr := rfl
@[simp] theorem taintLink_llTaint (s : State) : (taintLink s).llTaint = (s.llTaint || s.llBit) := rfl
@[simp] theorem taintLink_llLo (s : State) : (taintLink s).llLo = s.llLo := rfl
@[simp] theorem taintLink_llHi (s : State) : (taintLink s).llHi = s.llHi := rfl
@[simp] theorem taintLink_hazards (s : State) : (taintLink s).hazards = s.hazards := rfl
@[simp] theorem taintLink_mem (s : State) : (taintLink s).mem = s.mem := rfl
@[simp] theorem taintLink_history (s : State) : (taintLink s).history = s.history := rfl
@[simp] theorem taintLink_env (s : State) : (taintLink s).env = s.env := rfl
@[simp] theorem taintLink_draws (s : State) : (taintLink s).draws = s.draws := rfl
@[simp] theorem taintLink_cfg (s : State) : (taintLink s).cfg = s.cfg := rfl

/-! ## `setLink` -/

@[simp] theorem setLink_gpr (s : State) (a : Access) : (setLink s a).gpr = s.gpr := rfl
@[simp] theorem setLink_pc (s : State) (a : Access) : (setLink s a).pc = s.pc := rfl
@[simp] theorem setLink_cp0 (s : State) (a : Access) : (setLink s a).cp0 = s.cp0 := rfl
@[simp] theorem setLink_privileged (s : State) (a : Access) : (setLink s a).privileged = s.privileged := rfl
@[simp] theorem setLink_inDelaySlot (s : State) (a : Access) : (setLink s a).inDelaySlot = s.inDelaySlot := rfl
@[simp] theorem setLink_waiting (s : State) (a : Access) : (setLink s a).waiting = s.waiting := rfl
@[simp] theorem setLink_llBit (s : State) (a : Access) : (setLink s a).llBit = true := rfl
@[simp] theorem setLink_llSeen (s : State) (a : Access) : (setLink s a).llSeen = true := rfl
@[simp] theorem setLink_llAddr (s : State) (a : Access) : (setLink s a).llAddr = a := rfl
@[simp] theorem setLink_llTaint (s : State) (a : Access) : (setLink s a).llTaint = false := rfl
@[simp] theorem setLink_llLo (s : State) (a : Access) : (setLink s a).llLo = s.pc := rfl
@[simp] theorem setLink_llHi (s : State) (a : Access) : (setLink s a).llHi = s.pc + 3#32 := rfl
@[simp] theorem setLink_hazards (s : State) (a : Access) : (setLink s a).hazards = s.hazards := rfl
@[simp] theorem setLink_mem (s : State) (a : Access) : (setLink s a).mem = s.mem := rfl
@[simp] theorem setLink_history (s : State) (a : Access) : (setLink s a).history = s.history := rfl
@[simp] theorem setLink_env (s : State) (a : Access) : (setLink s a).env = s.env := rfl
@[simp] theorem setLink_draws (s : State) (a : Access) : (setLink s a).draws = s.draws := rfl
@[simp] theorem setLink_cfg (s : State) (a : Access) : (setLink s a).cfg = s.cfg := rfl

/-! ## `clearLink` -/

@[simp] theorem clearLink_gpr (s : State) : (clearLink s).gpr = s.gpr := rfl
@[simp] theorem clearLink_pc (s : State) : (clearLink s).pc = s.pc := rfl
@[simp] theorem clearLink_cp0 (s : State) : (clearLink s).cp0 = s.cp0 := rfl
@[simp] theorem clearLink_privileged (s : State) : (clearLink s).privileged = s.privileged := rfl
@[simp] theorem clearLink_inDelaySlot (s : State) : (clearLink s).inDelaySlot = s.inDelaySlot := rfl
@[simp] theorem clearLink_waiting (s : State) : (clearLink s).waiting = s.waiting := rfl
@[simp] theorem clearLink_llBit (s : State) : (clearLink s).llBit = false := rfl
@[simp] theorem clearLink_llSeen (s : State) : (clearLink s).llSeen = s.llSeen := rfl
@[simp] theorem clearLink_llAddr (s : State) : (clearLink s).llAddr = s.llAddr := rfl
@[simp] theorem clearLink_llTaint (s : State) : (clearLink s).llTaint = s.llTaint := rfl
@[simp] theorem clearLink_llLo (s : State) : (clearLink s).llLo = s.llLo := rfl
@[simp] theorem clearLink_llHi (s : State) : (clearLink s).llHi = s.llHi := rfl
@[simp] theorem clearLink_hazards (s : State) : (clearLink s).hazards = s.hazards := rfl
@[simp] theorem clearLink_mem (s : State) : (clearLink s).mem = s.mem := rfl
@[simp] theorem clearLink_history (s : State) : (clearLink s).history = s.history := rfl
@[simp] theorem clearLink_env (s : State) : (clearLink s).env = s.env := rfl
@[simp] theorem clearLink_draws (s : State) : (clearLink s).draws = s.draws := rfl
@[simp] theorem clearLink_cfg (s : State) : (clearLink s).cfg = s.cfg := rfl

/-! ## `putCells` -/

@[simp] theorem putCells_gpr (s : State) (a : Access) (cs : List (Nat × Byte)) : (putCells s a cs).gpr = s.gpr := rfl
@[simp] theorem putCells_pc (s : State) (a : Access) (cs : List (Nat × Byte)) : (putCells s a cs).pc = s.pc := rfl
@[simp] theorem putCells_cp0 (s : State) (a : Access) (cs : List (Nat × Byte)) : (putCells s a cs).cp0 = s.cp0 := rfl
@[simp] theorem putCells_privileged (s : State) (a : Access) (cs : List (Nat × Byte)) : (putCells s a cs).privileged = s.privileged := rfl
@[simp] theorem putCells_inDelaySlot (s : State) (a : Access) (cs : List (Nat × Byte)) : (putCells s a cs).inDelaySlot = s.inDelaySlot := rfl
@[simp] theorem putCells_waiting (s : State) (a : Access) (cs : List (Nat × Byte)) : (putCells s a cs).waiting = s.waiting := rfl
@[simp] theorem putCells_llBit (s : State) (a : Access) (cs : List (Nat × Byte)) : (putCells s a cs).llBit = s.llBit := rfl
@[simp] theorem putCells_llSeen (s : State) (a : Access) (cs : List (Nat × Byte)) : (putCells s a cs).llSeen = s.llSeen := rfl
@[simp] theorem putCells_llAddr (s : State) (a : Access) (cs : List (Nat × Byte)) : (putCells s a cs).llAddr = s.llAddr := rfl
@[simp] theorem putCells_llTaint (s : State) (a : Access) (cs : List (Nat × Byte)) : (putCells s a cs).llTaint = s.llTaint := rfl
@[simp] theorem putCells_llLo (s : State) (a : Access) (cs : List (Nat × Byte)) : (putCells s a cs).llLo = s.llLo := rfl
@[simp] theorem putCells_llHi (s : State) (a : Access) (cs : List (Nat × Byte)) : (putCells s a cs).llHi = s.llHi := rfl
@[simp] theorem putCells_hazards (s : State) (a : Access) (cs : List (Nat × Byte)) : (putCells s a cs).hazards = s.hazards := rfl
@[simp] theorem putCells_mem (s : State) (a : Access) (cs : List (Nat × Byte)) : (putCells s a cs).mem = writeBytes s.mem cs := rfl
@[simp] theorem putCells_history (s : State) (a : Access) (cs : List (Nat × Byte)) : (putCells s a cs).history = .access .store (cs.map (·.1)) a.cca :: s.history := rfl
@[simp] theorem putCells_env (s : State) (a : Access) (cs : List (Nat × Byte)) : (putCells s a cs).env = s.env := rfl
@[simp] theorem putCells_draws (s : State) (a : Access) (cs : List (Nat × Byte)) : (putCells s a cs).draws = s.draws := rfl
@[simp] theorem putCells_cfg (s : State) (a : Access) (cs : List (Nat × Byte)) : (putCells s a cs).cfg = s.cfg := rfl

/-! ## Reads after updates -/

@[simp] theorem readGpr_advance (s : State) (m : RegNum) : readGpr (advance s) m = readGpr s m := rfl
@[simp] theorem readX_advance (s : State) (g : RegField) : readX (advance s) g = readX s g := rfl
@[simp] theorem readCp0_advance (s : State) (q : Cp0Reg) : readCp0 (advance s) q = readCp0 s q := rfl
@[simp] theorem readCp0_writeGpr (s : State) (n : RegNum) (v : Word) (q : Cp0Reg) : readCp0 (writeGpr s n v) q = readCp0 s q := rfl
@[simp] theorem readCp0_writeX (s : State) (f : RegField) (v : Word) (q : Cp0Reg) : readCp0 (writeX s f v) q = readCp0 s q := rfl
@[simp] theorem readGpr_writeCp0 (s : State) (r : Cp0Reg) (v : Word) (m : RegNum) : readGpr (writeCp0 s r v) m = readGpr s m := rfl
@[simp] theorem readX_writeCp0 (s : State) (r : Cp0Reg) (v : Word) (g : RegField) : readX (writeCp0 s r v) g = readX s g := rfl
@[simp] theorem readGpr_drawn (s : State) (m : RegNum) : readGpr (drawn s) m = readGpr s m := rfl
@[simp] theorem readX_drawn (s : State) (g : RegField) : readX (drawn s) g = readX s g := rfl
@[simp] theorem readCp0_drawn (s : State) (q : Cp0Reg) : readCp0 (drawn s) q = readCp0 s q := rfl
@[simp] theorem readGpr_record (s : State) (e : MemEvent) (m : RegNum) : readGpr (record s e) m = readGpr s m := rfl
@[simp] theorem readX_record (s : State) (e : MemEvent) (g : RegField) : readX (record s e) g = readX s g := rfl
@[simp] theorem readCp0_record (s : State) (e : MemEvent) (q : Cp0Reg) : readCp0 (record s e) q = readCp0 s q := rfl
@[simp] theorem readGpr_addHazard (s : State) (f : HazardField) (b : Bool) (m : RegNum) : readGpr (addHazard s f b) m = readGpr s m := rfl
@[simp] theorem readX_addHazard (s : State) (f : HazardField) (b : Bool) (g : RegField) : readX (addHazard s f b) g = readX s g := rfl
@[simp] theorem readCp0_addHazard (s : State) (f : HazardField) (b : Bool) (q : Cp0Reg) : readCp0 (addHazard s f b) q = readCp0 s q := rfl
@[simp] theorem readGpr_clearHazards (s : State) (m : RegNum) : readGpr (clearHazards s) m = readGpr s m := rfl
@[simp] theorem readX_clearHazards (s : State) (g : RegField) : readX (clearHazards s) g = readX s g := rfl
@[simp] theorem readCp0_clearHazards (s : State) (q : Cp0Reg) : readCp0 (clearHazards s) q = readCp0 s q := rfl
@[simp] theorem readGpr_changeField (s : State) (f : HazardField) (b : Bool) (m : RegNum) : readGpr (changeField s f b) m = readGpr s m := rfl
@[simp] theorem readX_changeField (s : State) (f : HazardField) (b : Bool) (g : RegField) : readX (changeField s f b) g = readX s g := rfl
@[simp] theorem readGpr_noteLoad (s : State) (a : Access) (m : RegNum) : readGpr (noteLoad s a) m = readGpr s m := rfl
@[simp] theorem readX_noteLoad (s : State) (a : Access) (g : RegField) : readX (noteLoad s a) g = readX s g := rfl
@[simp] theorem readCp0_noteLoad (s : State) (a : Access) (q : Cp0Reg) : readCp0 (noteLoad s a) q = readCp0 s q := rfl
@[simp] theorem readGpr_noteStoreIn (s : State) (b c : Bool) (m : RegNum) : readGpr (noteStoreIn s b c) m = readGpr s m := rfl
@[simp] theorem readX_noteStoreIn (s : State) (b c : Bool) (g : RegField) : readX (noteStoreIn s b c) g = readX s g := rfl
@[simp] theorem readCp0_noteStoreIn (s : State) (b c : Bool) (q : Cp0Reg) : readCp0 (noteStoreIn s b c) q = readCp0 s q := rfl
@[simp] theorem readGpr_noteStore (s : State) (a : Access) (m : RegNum) : readGpr (noteStore s a) m = readGpr s m := rfl
@[simp] theorem readX_noteStore (s : State) (a : Access) (g : RegField) : readX (noteStore s a) g = readX s g := rfl
@[simp] theorem readCp0_noteStore (s : State) (a : Access) (q : Cp0Reg) : readCp0 (noteStore s a) q = readCp0 s q := rfl
@[simp] theorem readGpr_taintLink (s : State) (m : RegNum) : readGpr (taintLink s) m = readGpr s m := rfl
@[simp] theorem readX_taintLink (s : State) (g : RegField) : readX (taintLink s) g = readX s g := rfl
@[simp] theorem readCp0_taintLink (s : State) (q : Cp0Reg) : readCp0 (taintLink s) q = readCp0 s q := rfl
@[simp] theorem readGpr_setLink (s : State) (a : Access) (m : RegNum) : readGpr (setLink s a) m = readGpr s m := rfl
@[simp] theorem readX_setLink (s : State) (a : Access) (g : RegField) : readX (setLink s a) g = readX s g := rfl
@[simp] theorem readCp0_setLink (s : State) (a : Access) (q : Cp0Reg) : readCp0 (setLink s a) q = readCp0 s q := rfl
@[simp] theorem readGpr_clearLink (s : State) (m : RegNum) : readGpr (clearLink s) m = readGpr s m := rfl
@[simp] theorem readX_clearLink (s : State) (g : RegField) : readX (clearLink s) g = readX s g := rfl
@[simp] theorem readCp0_clearLink (s : State) (q : Cp0Reg) : readCp0 (clearLink s) q = readCp0 s q := rfl
@[simp] theorem readGpr_putCells (s : State) (a : Access) (cs : List (Nat × Byte)) (m : RegNum) : readGpr (putCells s a cs) m = readGpr s m := rfl
@[simp] theorem readX_putCells (s : State) (a : Access) (cs : List (Nat × Byte)) (g : RegField) : readX (putCells s a cs) g = readX s g := rfl
@[simp] theorem readCp0_putCells (s : State) (a : Access) (cs : List (Nat × Byte)) (q : Cp0Reg) : readCp0 (putCells s a cs) q = readCp0 s q := rfl

/-- A register after a write: the value, or what it was. Register 0 stays zero (R21). -/
theorem readGpr_writeGpr (s : State) (n m : RegNum) (v : Word) :
    readGpr (writeGpr s n v) m = if m = n ∧ n ≠ 0 then v else readGpr s m := by
  by_cases hm : m = 0
  · simp [readGpr, hm]; intro h; exact fun h' => absurd h.symm h'
  · by_cases hn : n = 0
    · simp [readGpr, writeGpr, hm, hn]
    · simp only [readGpr, writeGpr, hm, hn, if_false, ne_eq, not_false_eq_true, and_true]
      by_cases h : m = n
      · subst h; simp
      · rw [if_neg h]
        exact Vector.getElem_set_ne _ _ fun h' => h (Fin.ext h'.symm)

/-- With the map of R22 the translated registers are never register 0. -/
theorem xLat_ne_zero {cfg : Config} (h : cfg.xLat = Config.mips16eXLat) (f : RegField) :
    xLat cfg f ≠ 0 := by
  have : ∀ g : RegField, Config.mips16eXLat[g.toFin] ≠ 0 := by decide
  simpa only [xLat, h] using this f

/-- With the map of R22 the translated registers never name gp (R23). -/
theorem xLat_ne_gp {cfg : Config} (h : cfg.xLat = Config.mips16eXLat) (f : RegField) :
    xLat cfg f ≠ gpReg := by
  have : ∀ g : RegField, Config.mips16eXLat[g.toFin] ≠ gpReg := by decide
  simpa only [xLat, h] using this f

/-- With the map of R22 the translated registers never name T (R24). -/
theorem xLat_ne_t {cfg : Config} (h : cfg.xLat = Config.mips16eXLat) (f : RegField) :
    xLat cfg f ≠ tReg := by
  have : ∀ g : RegField, Config.mips16eXLat[g.toFin] ≠ tReg := by decide
  simpa only [xLat, h] using this f

/-- The map of R22 names eight registers. -/
theorem xLat_injective {cfg : Config} (h : cfg.xLat = Config.mips16eXLat) {f g : RegField}
    (e : xLat cfg f = xLat cfg g) : f = g := by
  have : ∀ f g : RegField, Config.mips16eXLat[f.toFin] = Config.mips16eXLat[g.toFin] → f = g := by
    decide
  exact this f g (by simpa only [xLat, h] using e)

/-- A translated register after a write of it: the value, or zero where the map names register 0. -/
theorem readGpr_writeX_same (s : State) (f : RegField) (v : Word) :
    readGpr (writeX s f v) (xLat s.cfg f) = if xLat s.cfg f = 0 then 0#32 else v := by
  rw [writeX, readGpr_writeGpr]
  by_cases h : xLat s.cfg f = 0
  · simp [h, readGpr]
  · simp [h]

theorem readGpr_writeX_other (s : State) (f : RegField) (v : Word) {m : RegNum}
    (h : m ≠ xLat s.cfg f) : readGpr (writeX s f v) m = readGpr s m := by
  simp [writeX, readGpr_writeGpr, h]

/-- Two names of coprocessor 0 registers share no cell. -/
theorem cp0Index_injective {q r : Cp0Reg} (h : cp0Index q = cp0Index r) : q = r := by
  obtain ⟨qn, qs⟩ := q
  obtain ⟨rn, rs⟩ := r
  have h' : 8 * qn.toNat + qs.toNat = 8 * rn.toNat + rs.toNat := congrArg Fin.val h
  have h1 := qs.isLt
  have h2 := rs.isLt
  have hn : qn = rn := BitVec.eq_of_toNat_eq (by omega)
  have hs : qs = rs := BitVec.eq_of_toNat_eq (by omega)
  rw [hn, hs]

/-- A coprocessor 0 register after a write of one. -/
theorem readCp0_writeCp0 (s : State) (q r : Cp0Reg) (v : Word) :
    readCp0 (writeCp0 s r v) q = if q = r then v else readCp0 s q := by
  by_cases h : q = r
  · subst h
    simp [readCp0, writeCp0]
  · rw [if_neg h]
    have hne : ¬ (cp0Index r).val = (cp0Index q).val :=
      fun h' => h (cp0Index_injective (Fin.ext h'.symm))
    exact Vector.getElem_set_ne (cp0Index r).isLt (cp0Index q).isLt hne

end Sys2Proof.Machine
end

