-- ==== Sys2Proof/Laws/Ops.lean ====
section
/-! SUPPORT. For each shared operation, once, everything that an answer of it says. -/

namespace Sys2Proof.Machine

/-- The outcome of operations is a next state only when they answered it. -/
theorem finish_next {r : Except Stop State} {t : State} : finish r = .next t ↔ r = .ok t := by
  cases r with
  | ok s => simp [finish]
  | error e => cases e <;> simp [finish, stopOutcome]

@[simp] theorem stopOutcome_ne_next (e : Stop) (t : State) : stopOutcome e ≠ .next t := by
  cases e <;> simp [stopOutcome]

/-- The row that decides answers what the rules allow (R66, R150). -/
theorem transEntry_allowed (cfg : Config) (pr : Bool) (k : AccessKind) (v : Word) :
    resultAllowed cfg k v (transEntry cfg pr k v).result = true := by
  unfold transEntry
  split
  · rename_i e he
    have h := List.find?_some he
    simp only [entryApplies, Bool.and_eq_true] at h
    exact h.2
  · rfl

/-- A translation that completes keeps the virtual address and its two low bits. -/
theorem translate_ok {s : State} {k : AccessKind} {v : Word} {a : Access}
    (h : translate s k v = .ok a) :
    a.vAddr = v ∧ a.pAddr % 4 = v.toNat % 4 ∧
      ∃ frame cca, (transEntry s.cfg s.privileged k v).result = .map frame cca ∧
        a.cca = ccaFrom s cca ∧ a.pAddr = physOf (transEntry s.cfg s.privileged k v).first frame v := by
  simp only [translate] at h
  split at h
  · rename_i frame cca he
    cases h
    exact ⟨rfl, by simp [physOf], frame, cca, he, rfl, rfl⟩
  all_goals cases h

/-- What a translation raises (R66, R150, R264): one of four exceptions with the address and the
flavour of the access, no TLB exception in kseg0, TLB Modified for a store only. -/
theorem translate_error {s : State} {k : AccessKind} {v : Word} {e : Trap}
    (h : translate s k v = .error e) :
    (e = .addressError (flavourOf k) v ∧ (k = .cacheop → s.cfg.cacheModeCheck = true)) ∨
    (inKseg0 s.cfg v = false ∧
      (e = .tlbRefill (flavourOf k) v ∨ e = .tlbInvalid (flavourOf k) v ∨
        (e = .tlbModified v ∧ k = .store))) := by
  have ha := transEntry_allowed s.cfg s.privileged k v
  simp only [translate] at h
  split at h
  all_goals rename_i he
  all_goals try cases h
  all_goals rw [he] at ha
  · refine .inl ⟨rfl, fun hk => ?_⟩
    simpa [resultAllowed, hk] using ha
  · exact .inr ⟨by simpa [resultAllowed] using ha, .inl rfl⟩
  · exact .inr ⟨by simpa [resultAllowed] using ha, .inr (.inl rfl)⟩
  · have h2 : inKseg0 s.cfg v = false ∧ k = .store := by simpa [resultAllowed] using ha
    exact .inr ⟨h2.1, .inr (.inr ⟨rfl, h2.2⟩)⟩

/-- A programmed access type depends on the register Config and the parameters alone. -/
theorem ccaFrom_congr {s t : State} (h1 : t.cfg = s.cfg)
    (h2 : readCp0 t configReg = readCp0 s configReg) (c : CcaSource) : ccaFrom t c = ccaFrom s c := by
  cases c <;> simp only [ccaFrom, programmedCca, h1, h2]

/-- Translation reads nothing of the state but the mode, the register Config and the parameters. -/
theorem translate_congr {s t : State} (h1 : t.cfg = s.cfg) (h2 : t.privileged = s.privileged)
    (h3 : readCp0 t configReg = readCp0 s configReg) (k : AccessKind) (v : Word) :
    translate t k v = translate s k v := by
  simp only [translate, h1, h2, ccaFrom_congr h1 h3]

/-- Everything an opened access says (R265). -/
theorem openAccess_ok {s : State} {k : AccessKind} {n : Nat} {w b : Bool} {v : Word} {a : Access}
    (h : openAccess s k n w b v = .ok a) :
    v.toNat % n = 0 ∧ translate s k v = .ok a ∧
      (w = true → watchAt s.cfg (flavourOf k) v = false) ∧
      (b = true → busErrorAt s.cfg (flavourOf k) a.pAddr = false) := by
  unfold openAccess at h
  split at h
  · cases h
  · rename_i hal
    split at h
    · cases h
    · rename_i x hx
      split at h
      · cases h
      · rename_i hw
        split at h
        · cases h
        · rename_i hb
          cases h
          exact ⟨Decidable.not_not.mp hal, hx, fun h => by simpa [h] using hw,
            fun h => by simpa [h] using hb⟩

/-- An access opens when nothing of R265 stands against it. -/
theorem openAccess_eq {s : State} {k : AccessKind} {n : Nat} {w b : Bool} {v : Word} {a : Access}
    (h1 : v.toNat % n = 0) (h2 : translate s k v = .ok a)
    (h3 : w = true → watchAt s.cfg (flavourOf k) v = false)
    (h4 : b = true → busErrorAt s.cfg (flavourOf k) a.pAddr = false) :
    openAccess s k n w b v = .ok a := by
  cases w <;> cases b <;> simp_all [openAccess]

/-- Bytes that can be accessed are populated and have had no other access type. -/
theorem checkBytes_ok {s : State} {a : Access} {bs : List Nat} :
    checkBytes s a bs = .ok () ↔
      (∀ q ∈ bs, populated s.cfg q = true) ∧ typeConflict s bs a.cca = false := by
  have hall : (bs.all (populated s.cfg) = true) ↔ ∀ q ∈ bs, populated s.cfg q = true := by simp
  rw [← hall]
  unfold checkBytes
  cases bs.all (populated s.cfg) <;> cases typeConflict s bs a.cca <;>
    simp [refuse, unpredictable]

/-- A load that is performed. -/
theorem loadBytes_ok {s t : State} {a : Access} {bs : List Nat} (h : loadBytes s a bs = .ok t) :
    checkBytes s a bs = .ok () ∧ t = record (noteLoad s a) (.access .load bs a.cca) := by
  unfold loadBytes at h
  split at h
  · cases h
  · rename_i hc; cases h; exact ⟨hc, rfl⟩

/-- Cells that can be stored are accessible and no program text (R78). -/
theorem checkCells_ok {s : State} {a : Access} {cs : List (Nat × Byte)} :
    checkCells s a cs = .ok () ↔
      checkBytes s a (cs.map (·.1)) = .ok () ∧ ∀ c ∈ cs, inText s.cfg c.1 = false := by
  have hany : (cs.any (fun c => inText s.cfg c.1) = false) ↔ ∀ c ∈ cs, inText s.cfg c.1 = false := by
    simp
  rw [← hany]
  unfold checkCells
  cases checkBytes s a (cs.map (·.1)) <;> cases cs.any (fun c => inText s.cfg c.1) <;>
    simp [refuse]

/-- A store that is performed. -/
theorem storeBytes_ok {s t : State} {a : Access} {cs : List (Nat × Byte)}
    (h : storeBytes s a cs = .ok t) :
    checkCells s a cs = .ok () ∧ t = noteStore (putCells s a cs) a := by
  unfold storeBytes at h
  split at h
  · cases h
  · rename_i hc; cases h; exact ⟨hc, rfl⟩

/-- Everything a GP-relative load that is performed says (R210). -/
theorem gpLoad_ok {s t : State} {imm : BitVec 16} {n : Nat} {a : Access}
    (h : gpLoad s imm n = .ok (a, t)) :
    openAccess s .load n false true (gpAddr s imm) = .ok a ∧
      loadBytes s a (byteSpan a.pAddr n) = .ok t := by
  unfold gpLoad at h
  split at h
  · cases h
  · rename_i x hx
    split at h
    · cases h
    · rename_i u hu; cases h; exact ⟨hx, hu⟩

/-- Everything a GP-relative store that is performed says (R241). -/
theorem gpStore_ok {s t : State} {imm : BitVec 16} {n : Nat} {v : Word}
    (h : gpStore s imm n v = .ok t) :
    ∃ a, openAccess s .store n false true (gpAddr s imm) = .ok a ∧
      storeBytes s a (writeCells s.cfg.bigEndian a.pAddr n v) = .ok t := by
  unfold gpStore at h
  split at h
  · cases h
  · rename_i x hx; exact ⟨x, hx, h⟩

/-- Everything an LWL or LWR that is performed says (R221). -/
theorem unalignedLoad_ok {s t : State} {rb : RegField} {imm : BitVec 9}
    {span : Bool → Nat → Nat → List Nat} {a : Access}
    (h : unalignedLoad s rb imm span = .ok (a, t)) :
    openAccess s .load 1 true true (baseAddr s rb imm) = .ok a ∧
      loadBytes s a (span s.cfg.bigEndian a.pAddr (lowBits (baseAddr s rb imm))) = .ok t := by
  simp only [unalignedLoad] at h
  split at h
  · cases h
  · rename_i x hx
    split at h
    · cases h
    · rename_i u hu; cases h; exact ⟨hx, hu⟩

/-- Everything an SWL or SWR that is performed says (R251). -/
theorem unalignedStore_ok {s t : State} {rb : RegField} {imm : BitVec 9}
    {cells : Bool → Nat → Nat → Word → List (Nat × Byte)} {y : Word}
    (h : unalignedStore s rb imm cells y = .ok t) :
    ∃ a, openAccess s .store 1 true true (baseAddr s rb imm) = .ok a ∧
      storeBytes s a (cells s.cfg.bigEndian a.pAddr (lowBits (baseAddr s rb imm)) y) = .ok t := by
  simp only [unalignedStore] at h
  split at h
  · cases h
  · rename_i x hx; exact ⟨x, hx, h⟩

/-- An LL whose access opens (R218). -/
theorem openLinked_ok {s : State} {v : Word} {a : Access} (h : openLinked s v = .ok a) :
    openAccess s .load 4 true false v = .ok a ∧ a.cca.synchronizable = true := by
  unfold openLinked at h
  split at h
  · cases h
  · rename_i x hx
    split at h
    · rename_i hs; cases h; exact ⟨hx, hs⟩
    · cases h

/-- An SC whose access opens (R242, U13). -/
theorem openConditional_ok {s : State} {v : Word} {a : Access} :
    openConditional s v = .ok a ↔
      openAccess s .store 4 true false v = .ok a ∧
        (s.llBit = true → a = s.llAddr → a.cca.synchronizable = true) := by
  unfold openConditional
  cases openAccess s .store 4 true false v with
  | error e => simp
  | ok x =>
    by_cases hp : s.llBit = true ∧ x = s.llAddr ∧ x.cca.synchronizable = false
    · obtain ⟨h1, h2, h3⟩ := hp
      simp only [h1, h3, ← h2, decide_true, Bool.and_self, Bool.not_false, if_true, unpredictable,
        reduceCtorEq, false_iff, not_and, Except.ok.injEq]
      rintro rfl h
      exact absurd (h trivial rfl) (by simp [h3])
    · have hc : (s.llBit && decide (x = s.llAddr) && !x.cca.synchronizable) = false := by
        simpa [Bool.and_eq_true, and_assoc] using hp
      simp only [hc, Bool.false_eq_true, if_false, Except.ok.injEq]
      constructor
      · rintro rfl
        exact ⟨rfl, fun h1 h2 => by simpa using fun h3 => hp ⟨h1, h2, h3⟩⟩
      · exact And.left

/-- A load ends in a next state only through its access. -/
theorem loadResult_next {rx : RegField} {f : Access → Word} {r : Except Stop (Access × State)}
    {t : State} (h : loadResult rx f r = .next t) :
    ∃ a u, r = .ok (a, u) ∧ t = advance (writeX u rx (f a)) := by
  match r with
  | .error e => exact absurd h (stopOutcome_ne_next e t)
  | .ok (a, u) => cases h; exact ⟨a, u, rfl, rfl⟩

/-- A store ends in a next state only through its access. -/
theorem storeResult_next {r : Except Stop State} {t : State} (h : storeResult r = .next t) :
    ∃ u, r = .ok u ∧ t = advance u := by
  match r with
  | .error e => exact absurd h (stopOutcome_ne_next e t)
  | .ok u => cases h; exact ⟨u, rfl, rfl⟩

/-- The test of coprocessor 0 access (R280). -/
theorem requireCop0_ok {s t : State} (h : requireCop0 s = .ok t) :
    cop0Enabled s = true ∧ t = cop0State s := by
  unfold requireCop0 at h
  split at h
  · rename_i hc; cases h; exact ⟨hc, rfl⟩
  · cases h

/-- The test of coprocessor 0 access draws at most once and changes nothing else. -/
theorem cop0State_eq (s : State) : cop0State s = s ∨ cop0State s = drawn s := by
  unfold cop0State seenState
  split
  · exact .inl rfl
  · split
    · exact .inr rfl
    · exact .inl rfl

/-- The test of the MT Module changes nothing (R271). -/
theorem requireMT_ok {s t : State} (h : requireMT s = .ok t) : s.cfg.hasMT = true ∧ t = s := by
  unfold requireMT at h
  split at h
  · rename_i hc; cases h; exact ⟨hc, rfl⟩
  · cases h

/-- DI and EI end in a next state only through the test of coprocessor 0 access. -/
theorem withCop0_next {s t : State} {k : State → State} (h : withCop0 s k = .next t) :
    cop0Enabled s = true ∧ t = advance (k (cop0State s)) := by
  unfold withCop0 at h
  split at h
  · exact absurd h (stopOutcome_ne_next _ _)
  · rename_i u hu
    obtain ⟨h1, rfl⟩ := requireCop0_ok hu
    cases h; exact ⟨h1, rfl⟩

/-- DMT, EMT, DVPE and EVPE end in a next state only through both tests. -/
theorem withMT_next {s t : State} {k : State → State} (h : withMT s k = .next t) :
    cop0Enabled s = true ∧ (cop0State s).cfg.hasMT = true ∧ t = advance (k (cop0State s)) := by
  unfold withMT at h
  split at h
  · exact absurd h (stopOutcome_ne_next _ _)
  · rename_i u hu
    obtain ⟨h1, rfl⟩ := requireCop0_ok hu
    split at h
    · exact absurd h (stopOutcome_ne_next _ _)
    · rename_i x hx
      obtain ⟨h2, rfl⟩ := requireMT_ok hx
      cases h; exact ⟨h1, h2, rfl⟩

/-- A read inside or outside a hazard window draws at most once and changes nothing else. -/
theorem cp0ReadState_eq (s : State) (r : Cp0Reg) :
    cp0ReadState s r = s ∨ cp0ReadState s r = drawn s := by
  unfold cp0ReadState seenState
  split
  · exact .inr rfl
  · split
    · split
      · exact .inr rfl
      · exact .inl rfl
    · split
      · split
        · exact .inr rfl
        · exact .inl rfl
      · exact .inl rfl

/-- Everything a store of another agent that is performed says (R76 item 3, R78, R287). -/
theorem eventStore_ok {s t : State} {cs : List (Nat × Byte)} (h : eventStore s cs = .ok t) :
    (∀ c ∈ cs, populated s.cfg c.1 = true) ∧ (∀ c ∈ cs, inText s.cfg c.1 = false) ∧
      t = { s with
        mem := writeBytes s.mem cs
        llBit := s.llBit && !(cs.any fun c => inLinkBlock s c.1) } := by
  unfold eventStore at h
  split at h
  · cases h
  · rename_i h1
    split at h
    · cases h
    · rename_i h2
      cases h
      exact ⟨by simpa using h1, by simpa using h2, rfl⟩

/-- What a halfword fetch that answers says (R28, R78). -/
theorem fetchHalf_ok {s : State} {v : Word} {bs : List Byte} (h : fetchHalf s v = .ok bs) :
    ∃ a, translate s .fetch v = .ok a ∧ bs = [readByte s.mem a.pAddr, readByte s.mem (a.pAddr + 1)] ∧
      ∀ q ∈ byteSpan a.pAddr 2, populated s.cfg q = true ∧ inText s.cfg q = true := by
  unfold fetchHalf at h
  split at h
  · cases h
  · rename_i a ha
    split at h
    · cases h
    · rename_i h1
      split at h
      · cases h
      · rename_i h2
        cases h
        refine ⟨a, ha, by simp [byteSpan, List.range_succ], fun q hq => ⟨?_, ?_⟩⟩
        · simp only [Bool.not_eq_eq_eq_not, Bool.not_true, Bool.not_eq_false, List.all_eq_true] at h1
          exact h1 q hq
        · simp only [Bool.not_eq_eq_eq_not, Bool.not_true, Bool.not_eq_false, List.all_eq_true] at h2
          exact h2 q hq

/-- An instruction is fetched only at an even pc that leaves room for it (R28). -/
theorem fetch_ok {s : State} {i : Instr} (h : fetch s = .ok i) :
    s.pc.toNat % 2 = 0 ∧
      ∃ bs, decodeBytes s.cfg.bigEndian bs = .ok i := by
  have hd : ∀ bs, decodeFetched s bs = .ok i → decodeBytes s.cfg.bigEndian bs = .ok i := by
    intro bs hb
    unfold decodeFetched at hb
    split at hb
    · cases hb
    · rename_i j hj; cases hb; exact hj
  unfold fetch at h
  split at h
  · cases h
  · rename_i hodd
    refine ⟨by omega, ?_⟩
    split at h
    · cases h
    · rename_i h0 hh0
      split at h
      · exact ⟨_, hd _ h⟩
      · split at h
        · cases h
        · split at h
          · cases h
          · exact ⟨_, hd _ h⟩

/-- What a PREF that is performed does (R155, R156): nothing but its place in the history, or the
zeroed line of PrepareForStore. -/
theorem prefetch_ok {s t : State} {hint : BitVec 5} {a : Access} (h : prefetch s hint a = .ok t) :
    (a.cca.cached = false ∧ t = s) ∨
    (a.cca.cached = true ∧ hint ≠ 30#5 ∧ t = record s (.access .pref [a.pAddr] a.cca)) ∨
    (a.cca.cached = true ∧ hint = 30#5 ∧ ∃ u, prepareForStore s a = .ok u ∧
      t = record u (.access .pref [a.pAddr] a.cca)) := by
  unfold prefetch at h
  split at h
  · rename_i hc
    split at h
    · rename_i hh
      split at h
      · cases h
      · rename_i u hu; cases h; exact .inr (.inr ⟨hc, hh, u, hu, rfl⟩)
    · rename_i hh; cases h; exact .inr (.inl ⟨hc, hh, rfl⟩)
  · rename_i hc; cases h; exact .inl ⟨by simpa using hc, rfl⟩

/-- What PrepareForStore does (R156): a hit changes nothing, a miss zeroes the line. -/
theorem prepareForStore_ok {s t : State} {a : Access} (h : prepareForStore s a = .ok t) :
    ∃ k, s.cfg.cacheLineLog2 = some k ∧
      ((drawBool s = true ∧ t = drawn s) ∨
       (drawBool s = false ∧ zeroLine (drawn s) a (lineCells (2 ^ k) a.pAddr) = .ok t)) := by
  unfold prepareForStore at h
  split at h
  · cases h
  · rename_i k hk
    refine ⟨k, hk, ?_⟩
    split at h
    · rename_i hd; cases h; exact .inl ⟨hd, rfl⟩
    · rename_i hd; exact .inr ⟨by simpa using hd, h⟩

/-- What zeroing a line does (R156). -/
theorem zeroLine_ok {s t : State} {a : Access} {cs : List (Nat × Byte)}
    (h : zeroLine s a cs = .ok t) :
    checkCells s a cs = .ok () ∧
      t = noteStoreIn (putCells s a cs) (cs.any fun c => inLinkBlock s c.1) a.cca.coherent := by
  unfold zeroLine at h
  split at h
  · cases h
  · rename_i hc; cases h; exact ⟨hc, rfl⟩

/-- Index Load Tag and Index Store Tag never end in a Cache Error (R150). -/
theorem cacheEffect_tag {cfg : Config} {op : BitVec 5} (h : cacheCode op = 1#3 ∨ cacheCode op = 2#3) :
    cacheEffect cfg op ≠ .cacheError := by
  unfold cacheEffect
  split
  · rcases h with h | h <;> simp [h]
  all_goals simp

/-- A use that R153 does not exclude. -/
theorem checkCacheUse_ok {s : State} {op : BitVec 5} {a : Access} :
    checkCacheUse s op a = .ok () ↔
      (addressOp op = true → a.cca.cached = true) ∧ mayHitOwnLine s op a = false := by
  unfold checkCacheUse
  cases addressOp op <;> cases a.cca.cached <;> cases mayHitOwnLine s op a <;>
    simp [undefinedUse, unpredictable]

/-- A CACHE operation completes only as `keep` or `loadTag`, in a use that R153 does not exclude
(R151). -/
theorem cacheOperation_next {s t : State} {op : BitVec 5} {a : Access}
    (h : cacheOperation s op a = .next t) :
    checkCacheUse s op a = .ok () ∧
      ((t = cacheDone s a ∧ cacheEffect s.cfg op = .keep) ∨
       (t = cacheDone (loadTag s) a ∧ cacheEffect s.cfg op = .loadTag)) := by
  simp only [cacheOperation] at h
  split at h
  · rename_i he
    rcases he with he | he <;> rw [he] at h <;> cases h
  · split at h
    · exact absurd h (stopOutcome_ne_next _ _)
    · rename_i hu
      refine ⟨hu, ?_⟩
      cases hk : cacheEffect s.cfg op <;> rw [hk] at h <;> cases h
      · exact .inl ⟨rfl, rfl⟩
      · exact .inr ⟨rfl, rfl⟩

/-- On a strongly ordered system no barrier acts (R73, R198). -/
theorem barrierActs_strong {cfg : Config} (h : cfg.stronglyOrdered = true)
    (test : BarrierKind → Bool) (between : List MemEvent) : barrierActs cfg test between = false := by
  simp [barrierActs, h]

/-- On a system that is not strongly ordered a single barrier acts where its test holds. -/
theorem barrierActs_single {cfg : Config} (h : cfg.stronglyOrdered = false)
    (test : BarrierKind → Bool) (k : BarrierKind) : barrierActs cfg test [.barrier k] = test k := by
  simp [barrierActs, isBarrier, h]

/-- On a strongly ordered system the admitted times are those that show every other agent the accesses
in program order, whatever barriers stand between (R73, R198). -/
theorem admitted_strong {cfg : Config} (h : cfg.stronglyOrdered = true) {history : List MemEvent}
    {agents : List Nat} {time : Nat → Nat → Nat} :
    Admitted cfg history agents time ↔
      ∀ (newer between older : List MemEvent) (a b : MemEvent),
        history = newer ++ b :: (between ++ a :: older) → isAccess a = true → isAccess b = true →
        ∀ p ∈ agents, time older.length p < time (between ++ a :: older).length p := by
  constructor
  · intro hA newer between older a b hh
    exact (hA newer between older a b hh).2.2 h
  · intro hP newer between older a b hh
    refine ⟨fun hc => ?_, fun ho p hp => ?_, fun _ => hP newer between older a b hh⟩
    · simp [completedBefore, barrierActs_strong h] at hc
    · simp only [orderedBefore, completedBefore, barrierActs_strong h, h, Bool.true_and,
        Bool.or_false, Bool.and_eq_true] at ho
      exact ⟨p, hp, hP newer between older a b hh ho.1 ho.2 p hp⟩

/-- Where there is no other agent nothing is demanded, so that SYNC has no effect (R198). -/
theorem admitted_alone (cfg : Config) (history : List MemEvent) (time : Nat → Nat → Nat) :
    Admitted cfg history [] time := by
  intro newer between older a b _
  simp

/-- A completion barrier orders at least what an ordering barrier of the same columns does (R198). -/
theorem orderedBefore_of_completedBefore {a b : MemEvent} {between : List MemEvent} {cfg : Config}
    (h : completedBefore cfg a b between = true) : orderedBefore cfg a b between = true := by
  simp [orderedBefore, h]

/-- What a barrier between two accesses demands of any admitted times (R198). -/
theorem Admitted.barrier {cfg : Config} {newer older : List MemEvent} {a b : MemEvent}
    {k : BarrierKind} {agents : List Nat} {time : Nat → Nat → Nat}
    (h : Admitted cfg (newer ++ b :: .barrier k :: a :: older) agents time) :
    (completedBefore cfg a b [.barrier k] = true →
      ∀ p ∈ agents, ∀ q ∈ agents, time older.length p < time (older.length + 2) q) ∧
    (orderedBefore cfg a b [.barrier k] = true →
      ∀ p ∈ agents, ∃ q ∈ agents, time older.length p < time (older.length + 2) q) := by
  have h' := h newer [.barrier k] older a b rfl
  have hl : ([MemEvent.barrier k] ++ a :: older).length = older.length + 2 := by simp
  simp only [hl] at h'
  exact ⟨h'.1, h'.2.1⟩

end Sys2Proof.Machine
end

