-- ==== Sys2Proof/Laws/PerInstr.lean ====
section
/-! SUPPORT. The family Encoding: the encoder writes a word of the instruction's own row of R112. One
lemma per format, one per constructor. -/

namespace Sys2Proof.Laws

open Sys2Proof.Machine

theorem append_and {m n : Nat} (x a : BitVec m) (y b : BitVec n) :
    (x ++ y) &&& (a ++ b) = (x &&& a) ++ (y &&& b) := by
  ext i h
  simp only [BitVec.getElem_and, BitVec.getElem_append]
  split <;> rfl

theorem ones1 : ∀ x : BitVec 1, x &&& 1#1 = x := by decide

theorem ones2 : ∀ x : BitVec 2, x &&& 3#2 = x := by decide

theorem ones3 : ∀ x : BitVec 3, x &&& 7#3 = x := by decide

theorem ones5 : ∀ x : BitVec 5, x &&& 31#5 = x := by decide

theorem ones6 : ∀ x : BitVec 6, x &&& 63#6 = x := by decide

/-- The constants of format EXT-I16 (R101) survive its mask. -/
theorem encodeI16_mask (major : BitVec 5) (sel rx : BitVec 3) (imm : BitVec 16) :
    encodeI16 major sel rx imm &&& 0xF800F8E0#32
      = 0b11110#5 ++ 0#6 ++ 0#5 ++ major ++ 0#3 ++ sel ++ 0#5 := by
  rw [show 0xF800F8E0#32 = 31#5 ++ 0#6 ++ 0#5 ++ 31#5 ++ 0#3 ++ 7#3 ++ 0#5 from rfl]
  unfold encodeI16
  rw [append_and, append_and, append_and, append_and, append_and, append_and]
  simp only [BitVec.and_zero, ones3, ones5]

/-- The constants of format EXT-I9OP (R102) survive its mask. -/
theorem encodeI9Op_mask (sel rx : BitVec 3) (op : BitVec 5) (imm : BitVec 9) :
    encodeI9Op sel rx op imm &&& 0xFE00F8E0#32
      = 0b11110#5 ++ 0#2 ++ 0#4 ++ 0#5 ++ 0b11010#5 ++ 0#3 ++ sel ++ 0#5 := by
  rw [show 0xFE00F8E0#32 = 31#5 ++ 3#2 ++ 0#4 ++ 0#5 ++ 31#5 ++ 0#3 ++ 7#3 ++ 0#5 from rfl]
  unfold encodeI9Op
  rw [append_and, append_and, append_and, append_and, append_and, append_and, append_and]
  simp only [BitVec.and_zero, ones2, ones3, ones5]

/-- The constants of format EXT-I9RB (R103) survive its mask. -/
theorem encodeI9Rb_mask (major : BitVec 5) (sub : BitVec 2) (sel rx rb : BitVec 3) (imm : BitVec 9) :
    encodeI9Rb major sub sel rx rb imm &&& 0xFE18F8E0#32
      = 0b11110#5 ++ 0#2 ++ 0#4 ++ sub ++ 0#3 ++ major ++ 0#3 ++ sel ++ 0#5 := by
  rw [show 0xFE18F8E0#32 = 31#5 ++ 3#2 ++ 0#4 ++ 3#2 ++ 0#3 ++ 31#5 ++ 0#3 ++ 7#3 ++ 0#5 from rfl]
  unfold encodeI9Rb
  rw [append_and, append_and, append_and, append_and, append_and, append_and, append_and, append_and]
  simp only [BitVec.and_zero, ones2, ones3, ones5]

/-- The constants of format EXT-CP0 (R104) survive its mask. -/
theorem encodeCp0_maskMove (cp0op : BitVec 5) (sel ry : BitVec 3) (r32 : BitVec 5) :
    encodeCp0 cp0op sel ry r32 &&& 0xFF1FFF00#32
      = 0b11110#5 ++ 0#3 ++ 0#3 ++ cp0op ++ 0b01100#5 ++ 7#3 ++ 0#3 ++ 0#5 := by
  rw [show 0xFF1FFF00#32 = 31#5 ++ 7#3 ++ 0#3 ++ 31#5 ++ 31#5 ++ 7#3 ++ 0#3 ++ 0#5 from rfl]
  unfold encodeCp0
  rw [append_and, append_and, append_and, append_and, append_and, append_and, append_and]
  simp only [BitVec.and_zero, ones3, ones5]

/-- The constants of format EXT-CP0 (R104) survive its mask. -/
theorem encodeCp0_maskBit (cp0op : BitVec 5) (sel ry : BitVec 3) (r32 : BitVec 5) :
    encodeCp0 cp0op sel ry r32 &&& 0xFFFFFF1F#32
      = 0b11110#5 ++ 0#3 ++ sel ++ cp0op ++ 0b01100#5 ++ 7#3 ++ 0#3 ++ r32 := by
  rw [show 0xFFFFFF1F#32 = 31#5 ++ 7#3 ++ 7#3 ++ 31#5 ++ 31#5 ++ 7#3 ++ 0#3 ++ 31#5 from rfl]
  unfold encodeCp0
  rw [append_and, append_and, append_and, append_and, append_and, append_and, append_and]
  simp only [BitVec.and_zero, ones3, ones5]

/-- The constants of format EXT-CP0 (R104) survive its mask. -/
theorem encodeCp0_maskPlain (cp0op : BitVec 5) (sel ry : BitVec 3) (r32 : BitVec 5) :
    encodeCp0 cp0op sel ry r32 &&& 0xFFFFFFFF#32
      = 0b11110#5 ++ 0#3 ++ sel ++ cp0op ++ 0b01100#5 ++ 7#3 ++ ry ++ r32 := by
  rw [show 0xFFFFFFFF#32 = 31#5 ++ 7#3 ++ 7#3 ++ 31#5 ++ 31#5 ++ 7#3 ++ 7#3 ++ 31#5 from rfl]
  unfold encodeCp0
  rw [append_and, append_and, append_and, append_and, append_and, append_and, append_and]
  simp only [ones3, ones5]

/-- The constants of format EXT-SLL (R105) survive its mask. -/
theorem encodeSll_maskField (fa : BitVec 5) (b : BitVec 1) (fb : BitVec 5) (rx ry sel : BitVec 3) :
    encodeSll fa b fb rx ry sel &&& 0xF820F81F#32
      = 0b11110#5 ++ 0#5 ++ b ++ 0#5 ++ 0b00110#5 ++ 0#3 ++ 0#3 ++ sel ++ 0b00#2 := by
  rw [show 0xF820F81F#32 = 31#5 ++ 0#5 ++ 1#1 ++ 0#5 ++ 31#5 ++ 0#3 ++ 0#3 ++ 7#3 ++ 3#2 from rfl]
  unfold encodeSll
  rw [append_and, append_and, append_and, append_and, append_and, append_and, append_and, append_and]
  simp only [BitVec.and_zero, ones1, ones2, ones3, ones5]

/-- The constants of format EXT-SLL (R105) survive its mask. -/
theorem encodeSll_maskZero (fa : BitVec 5) (b : BitVec 1) (fb : BitVec 5) (rx ry sel : BitVec 3) :
    encodeSll fa b fb rx ry sel &&& 0xF820FF1F#32
      = 0b11110#5 ++ 0#5 ++ b ++ 0#5 ++ 0b00110#5 ++ rx ++ 0#3 ++ sel ++ 0b00#2 := by
  rw [show 0xF820FF1F#32 = 31#5 ++ 0#5 ++ 1#1 ++ 0#5 ++ 31#5 ++ 7#3 ++ 0#3 ++ 7#3 ++ 3#2 from rfl]
  unfold encodeSll
  rw [append_and, append_and, append_and, append_and, append_and, append_and, append_and, append_and]
  simp only [BitVec.and_zero, ones1, ones2, ones3, ones5]

/-- The constants of format EXT-SLL (R105) survive its mask. -/
theorem encodeSll_maskHwr (fa : BitVec 5) (b : BitVec 1) (fb : BitVec 5) (rx ry sel : BitVec 3) :
    encodeSll fa b fb rx ry sel &&& 0xFFE0FF1F#32
      = 0b11110#5 ++ fa ++ b ++ 0#5 ++ 0b00110#5 ++ rx ++ 0#3 ++ sel ++ 0b00#2 := by
  rw [show 0xFFE0FF1F#32 = 31#5 ++ 31#5 ++ 1#1 ++ 0#5 ++ 31#5 ++ 7#3 ++ 0#3 ++ 7#3 ++ 3#2 from rfl]
  unfold encodeSll
  rw [append_and, append_and, append_and, append_and, append_and, append_and, append_and, append_and]
  simp only [BitVec.and_zero, ones1, ones2, ones3, ones5]

/-- The constants of format EXT-SLL (R105) survive its mask. -/
theorem encodeSll_maskSync (fa : BitVec 5) (b : BitVec 1) (fb : BitVec 5) (rx ry sel : BitVec 3) :
    encodeSll fa b fb rx ry sel &&& 0xF83FFFFF#32
      = 0b11110#5 ++ 0#5 ++ b ++ fb ++ 0b00110#5 ++ rx ++ ry ++ sel ++ 0b00#2 := by
  rw [show 0xF83FFFFF#32 = 31#5 ++ 0#5 ++ 1#1 ++ 31#5 ++ 31#5 ++ 7#3 ++ 7#3 ++ 7#3 ++ 3#2 from rfl]
  unfold encodeSll
  rw [append_and, append_and, append_and, append_and, append_and, append_and, append_and, append_and]
  simp only [BitVec.and_zero, ones1, ones2, ones3, ones5]

/-- The constants of format EXT-SLL (R105) survive its mask. -/
theorem encodeSll_maskPlain (fa : BitVec 5) (b : BitVec 1) (fb : BitVec 5) (rx ry sel : BitVec 3) :
    encodeSll fa b fb rx ry sel &&& 0xFFFFFFFF#32
      = 0b11110#5 ++ fa ++ b ++ fb ++ 0b00110#5 ++ rx ++ ry ++ sel ++ 0b00#2 := by
  rw [show 0xFFFFFFFF#32 = 31#5 ++ 31#5 ++ 1#1 ++ 31#5 ++ 31#5 ++ 7#3 ++ 7#3 ++ 7#3 ++ 3#2 from rfl]
  unfold encodeSll
  rw [append_and, append_and, append_and, append_and, append_and, append_and, append_and, append_and]
  simp only [ones1, ones2, ones3, ones5]

/-- The constants of format EXT-SRL (R106) survive its mask. -/
theorem encodeSrl_maskReg (b : BitVec 1) (rb rx ry sel : BitVec 3) :
    encodeSrl b rb rx ry sel &&& 0xFFF8F81F#32
      = 0b11110#5 ++ 0#5 ++ b ++ 0#2 ++ 0#3 ++ 0b00110#5 ++ 0#3 ++ 0#3 ++ sel ++ 0b10#2 := by
  rw [show 0xFFF8F81F#32 = 31#5 ++ 31#5 ++ 1#1 ++ 3#2 ++ 0#3 ++ 31#5 ++ 0#3 ++ 0#3 ++ 7#3 ++ 3#2 from rfl]
  unfold encodeSrl
  rw [append_and, append_and, append_and, append_and, append_and, append_and, append_and, append_and, append_and]
  simp only [BitVec.and_zero, ones1, ones2, ones3, ones5]

/-- The constants of format EXT-SRL (R106) survive its mask. -/
theorem encodeSrl_maskZero (b : BitVec 1) (rb rx ry sel : BitVec 3) :
    encodeSrl b rb rx ry sel &&& 0xFFFFF81F#32
      = 0b11110#5 ++ 0#5 ++ b ++ 0#2 ++ rb ++ 0b00110#5 ++ 0#3 ++ 0#3 ++ sel ++ 0b10#2 := by
  rw [show 0xFFFFF81F#32 = 31#5 ++ 31#5 ++ 1#1 ++ 3#2 ++ 7#3 ++ 31#5 ++ 0#3 ++ 0#3 ++ 7#3 ++ 3#2 from rfl]
  unfold encodeSrl
  rw [append_and, append_and, append_and, append_and, append_and, append_and, append_and, append_and, append_and]
  simp only [BitVec.and_zero, ones1, ones2, ones3, ones5]

/-- The constants of format EXT-SRL (R106) survive its mask. -/
theorem encodeSrl_maskRegT (b : BitVec 1) (rb rx ry sel : BitVec 3) :
    encodeSrl b rb rx ry sel &&& 0xFFF8F8FF#32
      = 0b11110#5 ++ 0#5 ++ b ++ 0#2 ++ 0#3 ++ 0b00110#5 ++ 0#3 ++ ry ++ sel ++ 0b10#2 := by
  rw [show 0xFFF8F8FF#32 = 31#5 ++ 31#5 ++ 1#1 ++ 3#2 ++ 0#3 ++ 31#5 ++ 0#3 ++ 7#3 ++ 7#3 ++ 3#2 from rfl]
  unfold encodeSrl
  rw [append_and, append_and, append_and, append_and, append_and, append_and, append_and, append_and, append_and]
  simp only [BitVec.and_zero, ones1, ones2, ones3, ones5]

/-- The constants of format EXT-SRL (R106) survive its mask. -/
theorem encodeSrl_maskZeroT (b : BitVec 1) (rb rx ry sel : BitVec 3) :
    encodeSrl b rb rx ry sel &&& 0xFFFFF8FF#32
      = 0b11110#5 ++ 0#5 ++ b ++ 0#2 ++ rb ++ 0b00110#5 ++ 0#3 ++ ry ++ sel ++ 0b10#2 := by
  rw [show 0xFFFFF8FF#32 = 31#5 ++ 31#5 ++ 1#1 ++ 3#2 ++ 7#3 ++ 31#5 ++ 0#3 ++ 7#3 ++ 7#3 ++ 3#2 from rfl]
  unfold encodeSrl
  rw [append_and, append_and, append_and, append_and, append_and, append_and, append_and, append_and, append_and]
  simp only [BitVec.and_zero, ones1, ones2, ones3, ones5]

end Sys2Proof.Laws

namespace Sys2Proof.Laws.Encoding

open Sys2Proof.Machine

/-- The word of an instruction lies in its row of R112. -/
def Statement (i : Instr) : Prop := (rowOf i).selects (encode i)

theorem addiuGp (rx : RegField) (imm : BitVec 16) : Statement (.addiuGp rx imm) :=
  Sys2Proof.Laws.encodeI16_mask _ _ _ _

theorem andi (rx : RegField) (imm : BitVec 16) : Statement (.andi rx imm) :=
  Sys2Proof.Laws.encodeI16_mask _ _ _ _

theorem cache (op : BitVec 5) (imm : BitVec 9) (rx : RegField) : Statement (.cache op imm rx) :=
  Sys2Proof.Laws.encodeI9Op_mask _ _ _ _

theorem di : Statement (.di) :=
  Sys2Proof.Laws.encodeCp0_maskPlain _ _ _ _

theorem diRy (ry : RegField) : Statement (.diRy ry) :=
  Sys2Proof.Laws.encodeCp0_maskBit _ _ _ _

theorem dmt : Statement (.dmt) :=
  Sys2Proof.Laws.encodeCp0_maskPlain _ _ _ _

theorem dmtRy (ry : RegField) : Statement (.dmtRy ry) :=
  Sys2Proof.Laws.encodeCp0_maskBit _ _ _ _

theorem dvpe : Statement (.dvpe) :=
  Sys2Proof.Laws.encodeCp0_maskPlain _ _ _ _

theorem dvpeRy (ry : RegField) : Statement (.dvpeRy ry) :=
  Sys2Proof.Laws.encodeCp0_maskBit _ _ _ _

theorem ehb : Statement (.ehb) :=
  Sys2Proof.Laws.encodeSll_maskPlain _ _ _ _ _ _

theorem ei : Statement (.ei) :=
  Sys2Proof.Laws.encodeCp0_maskPlain _ _ _ _

theorem eiRy (ry : RegField) : Statement (.eiRy ry) :=
  Sys2Proof.Laws.encodeCp0_maskBit _ _ _ _

theorem emt : Statement (.emt) :=
  Sys2Proof.Laws.encodeCp0_maskPlain _ _ _ _

theorem emtRy (ry : RegField) : Statement (.emtRy ry) :=
  Sys2Proof.Laws.encodeCp0_maskBit _ _ _ _

theorem evpe : Statement (.evpe) :=
  Sys2Proof.Laws.encodeCp0_maskPlain _ _ _ _

theorem evpeRy (ry : RegField) : Statement (.evpeRy ry) :=
  Sys2Proof.Laws.encodeCp0_maskBit _ _ _ _

theorem ext (ry rx : RegField) (lsb msbd : BitVec 5) : Statement (.ext ry rx lsb msbd) :=
  Sys2Proof.Laws.encodeSll_maskField _ _ _ _ _ _

theorem insZero (ry : RegField) (lsb msb : BitVec 5) : Statement (.insZero ry lsb msb) :=
  Sys2Proof.Laws.encodeSll_maskZero _ _ _ _ _ _

theorem ins (ry rx : RegField) (lsb msb : BitVec 5) : Statement (.ins ry rx lsb msb) :=
  Sys2Proof.Laws.encodeSll_maskField _ _ _ _ _ _

theorem lb (rx : RegField) (imm : BitVec 16) : Statement (.lb rx imm) :=
  Sys2Proof.Laws.encodeI16_mask _ _ _ _

theorem lbu (rx : RegField) (imm : BitVec 16) : Statement (.lbu rx imm) :=
  Sys2Proof.Laws.encodeI16_mask _ _ _ _

theorem lh (rx : RegField) (imm : BitVec 16) : Statement (.lh rx imm) :=
  Sys2Proof.Laws.encodeI16_mask _ _ _ _

theorem lhu (rx : RegField) (imm : BitVec 16) : Statement (.lhu rx imm) :=
  Sys2Proof.Laws.encodeI16_mask _ _ _ _

theorem ll (rx : RegField) (imm : BitVec 9) (rb : RegField) : Statement (.ll rx imm rb) :=
  Sys2Proof.Laws.encodeI9Rb_mask _ _ _ _ _ _

theorem lui (rx : RegField) (imm : BitVec 16) : Statement (.lui rx imm) :=
  Sys2Proof.Laws.encodeI16_mask _ _ _ _

theorem lwl (rx : RegField) (imm : BitVec 9) (rb : RegField) : Statement (.lwl rx imm rb) :=
  Sys2Proof.Laws.encodeI9Rb_mask _ _ _ _ _ _

theorem lwr (rx : RegField) (imm : BitVec 9) (rb : RegField) : Statement (.lwr rx imm rb) :=
  Sys2Proof.Laws.encodeI9Rb_mask _ _ _ _ _ _

theorem lw (rx : RegField) (imm : BitVec 16) : Statement (.lw rx imm) :=
  Sys2Proof.Laws.encodeI16_mask _ _ _ _

theorem mfc0 (ry : RegField) (r32 : BitVec 5) (sel : BitVec 3) : Statement (.mfc0 ry r32 sel) :=
  Sys2Proof.Laws.encodeCp0_maskMove _ _ _ _

theorem movnZero (rx ry : RegField) : Statement (.movnZero rx ry) :=
  Sys2Proof.Laws.encodeSrl_maskZero _ _ _ _ _

theorem movn (rx rb ry : RegField) : Statement (.movn rx rb ry) :=
  Sys2Proof.Laws.encodeSrl_maskReg _ _ _ _ _

theorem movtnZero (rx : RegField) : Statement (.movtnZero rx) :=
  Sys2Proof.Laws.encodeSrl_maskZeroT _ _ _ _ _

theorem movtn (rx rb : RegField) : Statement (.movtn rx rb) :=
  Sys2Proof.Laws.encodeSrl_maskRegT _ _ _ _ _

theorem movtzZero (rx : RegField) : Statement (.movtzZero rx) :=
  Sys2Proof.Laws.encodeSrl_maskZeroT _ _ _ _ _

theorem movtz (rx rb : RegField) : Statement (.movtz rx rb) :=
  Sys2Proof.Laws.encodeSrl_maskRegT _ _ _ _ _

theorem movzZero (rx ry : RegField) : Statement (.movzZero rx ry) :=
  Sys2Proof.Laws.encodeSrl_maskZero _ _ _ _ _

theorem movz (rx rb ry : RegField) : Statement (.movz rx rb ry) :=
  Sys2Proof.Laws.encodeSrl_maskReg _ _ _ _ _

theorem mtc0 (ry : RegField) (r32 : BitVec 5) (sel : BitVec 3) : Statement (.mtc0 ry r32 sel) :=
  Sys2Proof.Laws.encodeCp0_maskMove _ _ _ _

theorem ori (rx : RegField) (imm : BitVec 16) : Statement (.ori rx imm) :=
  Sys2Proof.Laws.encodeI16_mask _ _ _ _

theorem pause : Statement (.pause) :=
  Sys2Proof.Laws.encodeSll_maskPlain _ _ _ _ _ _

theorem pref (hint : BitVec 5) (imm : BitVec 9) (rx : RegField) : Statement (.pref hint imm rx) :=
  Sys2Proof.Laws.encodeI9Op_mask _ _ _ _

theorem rdhwr (ry : RegField) (hwr : BitVec 5) : Statement (.rdhwr ry hwr) :=
  Sys2Proof.Laws.encodeSll_maskHwr _ _ _ _ _ _

theorem sb (rx : RegField) (imm : BitVec 16) : Statement (.sb rx imm) :=
  Sys2Proof.Laws.encodeI16_mask _ _ _ _

theorem sc (rx : RegField) (imm : BitVec 9) (rb : RegField) : Statement (.sc rx imm rb) :=
  Sys2Proof.Laws.encodeI9Rb_mask _ _ _ _ _ _

theorem sh (rx : RegField) (imm : BitVec 16) : Statement (.sh rx imm) :=
  Sys2Proof.Laws.encodeI16_mask _ _ _ _

theorem swl (rx : RegField) (imm : BitVec 9) (rb : RegField) : Statement (.swl rx imm rb) :=
  Sys2Proof.Laws.encodeI9Rb_mask _ _ _ _ _ _

theorem swr (rx : RegField) (imm : BitVec 9) (rb : RegField) : Statement (.swr rx imm rb) :=
  Sys2Proof.Laws.encodeI9Rb_mask _ _ _ _ _ _

theorem sw (rx : RegField) (imm : BitVec 16) : Statement (.sw rx imm) :=
  Sys2Proof.Laws.encodeI16_mask _ _ _ _

theorem sync (stype : BitVec 5) : Statement (.sync stype) :=
  Sys2Proof.Laws.encodeSll_maskSync _ _ _ _ _ _

theorem xori (rx : RegField) (imm : BitVec 16) : Statement (.xori rx imm) :=
  Sys2Proof.Laws.encodeI16_mask _ _ _ _

end Sys2Proof.Laws.Encoding
end

