-- ==== Sys2Proof/Tests/Slice0.lean ====
section
/-! SUPPORT. The model's own tests. Expected values come from 95_test_vectors.md, section 2, and the
rules; the words are written out there from the encodings of R101 to R112. Each theorem named
`witness_<Name>` shows that the hypotheses of `Obligations.<Name>` can be met together. -/

namespace Sys2Proof.Tests

open Sys2Proof Sys2Proof.Machine

/-! ## Helpers -/

/-- The next state of an outcome, if it is one. -/
def nextOf : Host.Outcome State Fault Refusal → Option State
  | .next s => some s
  | .fault _ => none
  | .refused _ => none

/-- The fault of an outcome, if it is one. -/
def faultOf : Host.Outcome State Fault Refusal → Option Fault
  | .next _ => none
  | .fault f => some f
  | .refused _ => none

/-- The refusal of an outcome, if it is one. -/
def refusalOf : Host.Outcome State Fault Refusal → Option Refusal
  | .next _ => none
  | .fault _ => none
  | .refused r => some r

theorem exists_next {o : Host.Outcome State Fault Refusal} (h : (nextOf o).isSome = true) :
    ∃ t, o = .next t := by
  cases o with
  | next t => exact ⟨t, rfl⟩
  | fault f => cases h
  | refused r => cases h

theorem exists_next_such {o : Host.Outcome State Fault Refusal} (p : State → Bool)
    (h : (nextOf o).any p = true) : ∃ t, o = .next t ∧ p t = true := by
  cases o with
  | next t => exact ⟨t, rfl, h⟩
  | fault f => cases h
  | refused r => cases h

/-- A register file with a few registers set. -/
def regs (l : List (RegNum × Word)) : Vector Word 32 :=
  l.foldl (fun g p => g.set p.1.val p.2 p.1.isLt) (Vector.replicate 32 0#32)

/-- The reset cells of coprocessor 0 with a few registers set. -/
def cells (l : List (Cp0Reg × Word)) : Vector Word 256 :=
  l.foldl (fun g p => g.set (cp0Index p.1).val p.2 (cp0Index p.1).isLt) resetCp0

/-- The memory image `M` of 95_test_vectors.md. -/
def image : List Host.Cell :=
  [(0x1000, 0x11#8), (0x1001, 0x22#8), (0x1002, 0x33#8), (0x1003, 0x44#8),
   (0x1004, 0x85#8), (0x1005, 0x96#8), (0x1006, 0xA7#8), (0x1007, 0xB8#8)]

/-- The parameters at launch, in a byte order. -/
def order (big : Bool) : Config := { Config.launch with bigEndian := big }

/-- The start state of the vectors: the image, a few registers. -/
def start (big : Bool) (l : List (RegNum × Word)) : State :=
  { State.reset with pc := 0x00400000#32, gpr := regs l, mem := image, cfg := order big }

/-- The next state of the instruction that a word decodes to. -/
def runWord (w : Word) (s : State) : Option State :=
  match decodeWord w with
  | .ok i => nextOf (exec i s)
  | .error _ => none

/-- Register `n` after the instruction of a word. -/
def regAfter (w : Word) (s : State) (n : RegNum) : Option Word := (runWord w s).map (readGpr · n)

/-- The bytes at rising addresses from `a` after the instruction of a word. -/
def bytesAfter (w : Word) (s : State) (a n : Nat) : Option (List Byte) :=
  (runWord w s).map fun t => (byteSpan a n).map (readByte t.mem)

/-- A coprocessor 0 register after the instruction of a word. -/
def cp0After (w : Word) (s : State) (r : Cp0Reg) : Option Word := (runWord w s).map (readCp0 · r)

/-! ## WellFormed refuses ill-formed terms -/

theorem test_illFormed_ext : (Instr.ext 2#3 4#3 8#5 24#5).wellFormed = false := by decide
theorem test_illFormed_insZero : (Instr.insZero 2#3 16#5 8#5).wellFormed = false := by decide
theorem test_illFormed_ins : (Instr.ins 2#3 4#3 16#5 8#5).wellFormed = false := by decide
theorem test_wellFormed_ext_edge : (Instr.ext 2#3 4#3 8#5 23#5).wellFormed = true := by decide

/-! ## Decoding of one written word of every constructor -/

theorem test_decode_addiuGp : decodeWord 0xF2220234#32 = .ok (.addiuGp 2#3 0x1234#16) := by decide
theorem test_decode_andi : decodeWord 0xF0E06A7F#32 = .ok (.andi 2#3 0x00FF#16) := by decide
theorem test_decode_cache : decodeWord 0xF1F5D4A0#32 = .ok (.cache 0x15#5 0x1E0#9 4#3) := by decide
theorem test_decode_di : decodeWord 0xF006670C#32 = .ok (.di) := by decide
theorem test_decode_diRy : decodeWord 0xF002674C#32 = .ok (.diRy 2#3) := by decide
theorem test_decode_dmt : decodeWord 0xF0266701#32 = .ok (.dmt) := by decide
theorem test_decode_dmtRy : decodeWord 0xF0226741#32 = .ok (.dmtRy 2#3) := by decide
theorem test_decode_dvpe : decodeWord 0xF0266700#32 = .ok (.dvpe) := by decide
theorem test_decode_dvpeRy : decodeWord 0xF0226700#32 = .ok (.dvpeRy 0#3) := by decide
theorem test_decode_ehb : decodeWord 0xF0C03010#32 = .ok (.ehb) := by decide
theorem test_decode_ei : decodeWord 0xF007670C#32 = .ok (.ei) := by decide
theorem test_decode_eiRy : decodeWord 0xF003678C#32 = .ok (.eiRy 4#3) := by decide
theorem test_decode_emt : decodeWord 0xF0276701#32 = .ok (.emt) := by decide
theorem test_decode_emtRy : decodeWord 0xF0236761#32 = .ok (.emtRy 3#3) := by decide
theorem test_decode_evpe : decodeWord 0xF0276700#32 = .ok (.evpe) := by decide
theorem test_decode_evpeRy : decodeWord 0xF02367E0#32 = .ok (.evpeRy 7#3) := by decide
theorem test_decode_ext : decodeWord 0xF13B3108#32 = .ok (.ext 0#3 1#3 4#5 27#5) := by decide
theorem test_decode_insZero : decodeWord 0xF10B3044#32 = .ok (.insZero 2#3 4#5 11#5) := by decide
theorem test_decode_ins : decodeWord 0xF22F3444#32 = .ok (.ins 2#3 4#3 8#5 15#5) := by decide
theorem test_decode_lb : decodeWord 0xF7FF927F#32 = .ok (.lb 2#3 0xFFFF#16) := by decide
theorem test_decode_lbu : decodeWord 0xF00092A5#32 = .ok (.lbu 2#3 5#16) := by decide
theorem test_decode_lh : decodeWord 0xF0009346#32 = .ok (.lh 3#3 6#16) := by decide
theorem test_decode_lhu : decodeWord 0xF0009386#32 = .ok (.lhu 3#3 6#16) := by decide
theorem test_decode_ll : decodeWord 0xF1E492DC#32 = .ok (.ll 2#3 0x1FC#9 4#3) := by decide
theorem test_decode_lui : decodeWord 0xF0106D20#32 = .ok (.lui 5#3 0x8000#16) := by decide
theorem test_decode_lwl : decodeWord 0xF00492E2#32 = .ok (.lwl 2#3 2#9 4#3) := by decide
theorem test_decode_lwr : decodeWord 0xF01492E5#32 = .ok (.lwr 2#3 5#9 4#3) := by decide
theorem test_decode_lw : decodeWord 0xF0109420#32 = .ok (.lw 4#3 0x8000#16) := by decide
theorem test_decode_mfc0 : decodeWord 0xF0A06790#32 = .ok (.mfc0 4#3 16#5 5#3) := by decide
theorem test_decode_movnZero : decodeWord 0xF000326A#32 = .ok (.movnZero 2#3 3#3) := by decide
theorem test_decode_movn : decodeWord 0xF02130EA#32 = .ok (.movn 0#3 1#3 7#3) := by decide
theorem test_decode_movtnZero : decodeWord 0xF000321A#32 = .ok (.movtnZero 2#3) := by decide
theorem test_decode_movtn : decodeWord 0xF024321A#32 = .ok (.movtn 2#3 4#3) := by decide
theorem test_decode_movtzZero : decodeWord 0xF0003216#32 = .ok (.movtzZero 2#3) := by decide
theorem test_decode_movtz : decodeWord 0xF0243216#32 = .ok (.movtz 2#3 4#3) := by decide
theorem test_decode_movzZero : decodeWord 0xF0003266#32 = .ok (.movzZero 2#3 3#3) := by decide
theorem test_decode_movz : decodeWord 0xF0243266#32 = .ok (.movz 2#3 4#3 3#3) := by decide
theorem test_decode_mtc0 : decodeWord 0xF04167A4#32 = .ok (.mtc0 5#3 4#5 2#3) := by decide
theorem test_decode_ori : decodeWord 0xF66A6A58#32 = .ok (.ori 2#3 0x5678#16) := by decide
theorem test_decode_pause : decodeWord 0xF1403018#32 = .ok (.pause) := by decide
theorem test_decode_pref : decodeWord 0xF104D280#32 = .ok (.pref 4#5 0x100#9 2#3) := by decide
theorem test_decode_rdhwr : decodeWord 0xF01D304C#32 = .ok (.rdhwr 2#3 29#5) := by decide
theorem test_decode_sb : decodeWord 0xF000D265#32 = .ok (.sb 2#3 5#16) := by decide
theorem test_decode_sc : decodeWord 0xF0E4D2DF#32 = .ok (.sc 2#3 0xFF#9 4#3) := by decide
theorem test_decode_sh : decodeWord 0xF000D346#32 = .ok (.sh 3#3 6#16) := by decide
theorem test_decode_swl : decodeWord 0xF004D2E2#32 = .ok (.swl 2#3 2#9 4#3) := by decide
theorem test_decode_swr : decodeWord 0xF014D2E5#32 = .ok (.swr 2#3 5#9 4#3) := by decide
theorem test_decode_sw : decodeWord 0xF7EFD43C#32 = .ok (.sw 4#3 0x7FFC#16) := by decide
theorem test_decode_sync : decodeWord 0xF4803014#32 = .ok (.sync 18#5) := by decide
theorem test_decode_xori : decodeWord 0xF7FF6A9F#32 = .ok (.xori 2#3 0xFFFF#16) := by decide

/-- A neighbour of EHB whose constant field differs is no instruction of the spec (R113). -/
theorem test_decode_fixedField : decodeWord 0xF0C03030#32 = .error .fixedField := by decide
/-- A halfword that does not begin with EXTEND is refused before the second is read (R113). -/
theorem test_decode_notExtend : decodeBytes false [0x00#8, 0x65#8] = .error .notExtend := by decide
/-- `0xF2220234` in a little-endian and in a big-endian memory (R80). -/
theorem test_layout_little : bytesOfWord false 0xF2220234#32 = [0x22#8, 0xF2#8, 0x34#8, 0x02#8] := by
  decide
theorem test_layout_big : bytesOfWord true 0xF2220234#32 = [0xF2#8, 0x22#8, 0x02#8, 0x34#8] := by
  decide

/-! ## Vectors of 95_test_vectors.md, section 2 -/

theorem test_addiuGp_wraps : regAfter 0xF0100020#32 (start false [(28, 0#32)]) 16 = some 0xFFFF8000#32 := by decide
theorem test_addiuGp : regAfter 0xF7EF073F#32 (start false [(28, 0x7FFFFFFF#32)]) 7 = some 0x80007FFE#32 := by decide
theorem test_andi : regAfter 0xF7FF697F#32 (start false [(17, 0xDEADBEEF#32)]) 17 = some 0x0000BEEF#32 := by decide
theorem test_lui : regAfter 0xF0106D20#32 (start false []) 5 = some 0x80000000#32 := by decide
theorem test_ori_zeroExtends : regAfter 0xF0106C40#32 (start false []) 4 = some 0x00008000#32 := by decide
theorem test_xori : regAfter 0xF7FF6A9F#32 (start false [(2, 0x12345678#32)]) 2 = some 0x1234A987#32 := by decide
theorem test_ext : regAfter 0xF13B3108#32 (start false [(17, 0xDEADBEEF#32)]) 16 = some 0x0DEADBEE#32 := by decide
theorem test_ext_same : regAfter 0xF7E03368#32 (start false [(3, 0x80000000#32)]) 3 = some 0x00000001#32 := by decide
theorem test_ins : regAfter 0xF22F3444#32 (start false [(2, 0xFFFFFFFF#32), (4, 0x12345678#32)]) 2 = some 0xFFFF78FF#32 := by decide
theorem test_ins_top : regAfter 0xF7FF3444#32 (start false [(4, 0xFFFFFFFF#32)]) 2 = some 0x80000000#32 := by decide
theorem test_insZero : regAfter 0xF10B3044#32 (start false [(2, 0xFFFFFFFF#32)]) 2 = some 0xFFFFF00F#32 := by decide
theorem test_insZero_top : regAfter 0xF7DF3044#32 (start false [(2, 0xFFFFFFFF#32)]) 2 = some 0x7FFFFFFF#32 := by decide
theorem test_lb : regAfter 0xF0009265#32 (start false [(28, 0x1000#32), (4, 0x1000#32)]) 2 = some 0xFFFFFF96#32 := by decide
theorem test_lbu : regAfter 0xF00092A5#32 (start false [(28, 0x1000#32), (4, 0x1000#32)]) 2 = some 0x96#32 := by decide
theorem test_lh_big : regAfter 0xF0009346#32 (start true [(28, 0x1000#32), (4, 0x1000#32)]) 3 = some 0xFFFFA7B8#32 := by decide
theorem test_lh_little : regAfter 0xF0009346#32 (start false [(28, 0x1000#32), (4, 0x1000#32)]) 3 = some 0xFFFFB8A7#32 := by decide
theorem test_lhu_big : regAfter 0xF0009386#32 (start true [(28, 0x1000#32), (4, 0x1000#32)]) 3 = some 0xA7B8#32 := by decide
theorem test_lhu_little : regAfter 0xF0009386#32 (start false [(28, 0x1000#32), (4, 0x1000#32)]) 3 = some 0xB8A7#32 := by decide
theorem test_lw_big : regAfter 0xF0009428#32 (start true [(28, 0x0FFC#32)]) 4 = some 0x8596A7B8#32 := by decide
theorem test_lw_little : regAfter 0xF0109420#32 (start false [(28, 0x9000#32)]) 4 = some 0x44332211#32 := by decide
theorem test_ll_big : regAfter 0xF1E492DC#32 (start true [(4, 0x1008#32)]) 2 = some 0x8596A7B8#32 := by decide
theorem test_lwl_big : regAfter 0xF00492E2#32 (start true [(28, 0x1000#32), (4, 0x1000#32), (2, 0xAABBCCDD#32)]) 2 = some 0x3344CCDD#32 := by decide
theorem test_lwl_little : regAfter 0xF00492E2#32 (start false [(28, 0x1000#32), (4, 0x1000#32), (2, 0xAABBCCDD#32)]) 2 = some 0x332211DD#32 := by decide
theorem test_lwr_big : regAfter 0xF01492E5#32 (start true [(28, 0x1000#32), (4, 0x1000#32), (2, 0xAABBCCDD#32)]) 2 = some 0xAABB8596#32 := by decide
theorem test_lwr_little : regAfter 0xF01492E5#32 (start false [(28, 0x1000#32), (4, 0x1000#32), (2, 0xAABBCCDD#32)]) 2 = some 0xAAB8A796#32 := by decide
theorem test_movz_moves : regAfter 0xF0243266#32 (start false [(4, 0xAAAA5555#32), (2, 0x11111111#32)]) 2 = some 0xAAAA5555#32 := by decide
theorem test_movz_keeps : regAfter 0xF0243266#32 (start false [(4, 0xAAAA5555#32), (2, 0x11111111#32), (3, 1#32)]) 2 = some 0x11111111#32 := by decide
theorem test_movzZero_keeps : regAfter 0xF0003266#32 (start false [(4, 0xAAAA5555#32), (2, 0x11111111#32), (3, 0x80000000#32)]) 2 = some 0x11111111#32 := by decide
theorem test_movzZero_clears : regAfter 0xF0003266#32 (start false [(4, 0xAAAA5555#32), (2, 0x11111111#32)]) 2 = some 0#32 := by decide
theorem test_movn_moves : regAfter 0xF024326A#32 (start false [(4, 0xAAAA5555#32), (2, 0x11111111#32), (3, 0x80000000#32)]) 2 = some 0xAAAA5555#32 := by decide
theorem test_movn_keeps : regAfter 0xF024326A#32 (start false [(4, 0xAAAA5555#32), (2, 0x11111111#32)]) 2 = some 0x11111111#32 := by decide
theorem test_movnZero_clears : regAfter 0xF000326A#32 (start false [(4, 0xAAAA5555#32), (2, 0x11111111#32), (3, 5#32)]) 2 = some 0#32 := by decide
theorem test_movnZero_keeps : regAfter 0xF000326A#32 (start false [(4, 0xAAAA5555#32), (2, 0x11111111#32)]) 2 = some 0x11111111#32 := by decide
theorem test_movtz_moves : regAfter 0xF0243216#32 (start false [(4, 0xAAAA5555#32), (2, 0x11111111#32)]) 2 = some 0xAAAA5555#32 := by decide
theorem test_movtz_keeps : regAfter 0xF0243216#32 (start false [(4, 0xAAAA5555#32), (2, 0x11111111#32), (24, 1#32)]) 2 = some 0x11111111#32 := by decide
theorem test_movtzZero : regAfter 0xF0003216#32 (start false [(4, 0xAAAA5555#32), (2, 0x11111111#32)]) 2 = some 0#32 := by decide
theorem test_movtn : regAfter 0xF024321A#32 (start false [(4, 0xAAAA5555#32), (2, 0x11111111#32), (24, 0xFFFFFFFF#32)]) 2 = some 0xAAAA5555#32 := by decide
theorem test_movtnZero : regAfter 0xF000321A#32 (start false [(4, 0xAAAA5555#32), (2, 0x11111111#32), (24, 2#32)]) 2 = some 0#32 := by decide
theorem test_sb :
    bytesAfter 0xF000D265#32 (start false [(28, 0x1000#32), (4, 0x1000#32), (2, 0xAABBCCDD#32), (3, 0x1234BEEF#32)]) 0x1004 4 = some [0x85#8, 0xDD#8, 0xA7#8, 0xB8#8] := by decide
theorem test_sh_big :
    bytesAfter 0xF000D346#32 (start true [(28, 0x1000#32), (4, 0x1000#32), (2, 0xAABBCCDD#32), (3, 0x1234BEEF#32)]) 0x1004 4 = some [0x85#8, 0x96#8, 0xBE#8, 0xEF#8] := by decide
theorem test_sh_little :
    bytesAfter 0xF000D346#32 (start false [(28, 0x1000#32), (4, 0x1000#32), (2, 0xAABBCCDD#32), (3, 0x1234BEEF#32)]) 0x1004 4 = some [0x85#8, 0x96#8, 0xEF#8, 0xBE#8] := by decide
theorem test_sw_big :
    bytesAfter 0xF7EFD43C#32 (start true [(28, 0xFFFF9008#32), (4, 0x1000#32)]) 0x1000 8 = some [0x11#8, 0x22#8, 0x33#8, 0x44#8, 0x00#8, 0x00#8, 0x10#8, 0x00#8] := by decide
theorem test_sw_little :
    bytesAfter 0xF000D428#32 (start false [(28, 0x1000#32), (4, 0x1000#32), (2, 0xAABBCCDD#32), (3, 0x1234BEEF#32)]) 0x1007 5 = some [0xB8#8, 0x00#8, 0x10#8, 0x00#8, 0x00#8] := by decide
theorem test_swl_big :
    bytesAfter 0xF004D2E2#32 (start true [(28, 0x1000#32), (4, 0x1000#32), (2, 0xAABBCCDD#32), (3, 0x1234BEEF#32)]) 0x1000 5 = some [0x11#8, 0x22#8, 0xAA#8, 0xBB#8, 0x85#8] := by decide
theorem test_swl_little :
    bytesAfter 0xF004D2E2#32 (start false [(28, 0x1000#32), (4, 0x1000#32), (2, 0xAABBCCDD#32), (3, 0x1234BEEF#32)]) 0x1000 5 = some [0xCC#8, 0xBB#8, 0xAA#8, 0x44#8, 0x85#8] := by decide
theorem test_swr_big :
    bytesAfter 0xF014D2E5#32 (start true [(28, 0x1000#32), (4, 0x1000#32), (2, 0xAABBCCDD#32), (3, 0x1234BEEF#32)]) 0x1003 5 = some [0x44#8, 0xCC#8, 0xDD#8, 0xA7#8, 0xB8#8] := by decide
theorem test_swr_little :
    bytesAfter 0xF014D2E5#32 (start false [(28, 0x1000#32), (4, 0x1000#32), (2, 0xAABBCCDD#32), (3, 0x1234BEEF#32)]) 0x1003 5 = some [0x44#8, 0x85#8, 0xDD#8, 0xCC#8, 0xBB#8] := by decide

/-- The link state after `LL a1, 0(a0)` (R218). -/
theorem test_ll_link : (runWord 0xF00495C0#32 (start false [(4, 0x1000#32)])).map
    (fun t => (t.llBit, t.llAddr.vAddr, t.llAddr.pAddr, t.llTaint)) =
      some (true, 0x1000#32, 0x1000, false) := by decide
/-- A misaligned SH raises the store flavour with its address (R67). -/
theorem test_sh_misaligned : faultOf (exec (.sh 3#3 7#16) (start false [(28, 0x1000#32)])) =
    some (.trap (.addressError .store 0x1007#32)) := by decide

/-- A state whose LL was at the pc, with the linked word at 0x1000. -/
def linked (big : Bool) : State :=
  { start big [(4, 0x1000#32), (2, 0xAABBCCDD#32)] with
    llBit := true
    llSeen := true
    llAddr := ⟨0x1000#32, 0x1000, Config.coherentCca⟩
    llLo := 0x00400000#32
    llHi := 0x00400003#32 }

theorem test_sc_succeeds : (runWord 0xF004D2C0#32 (linked true)).map
    (fun t => ((byteSpan 0x1000 5).map (readByte t.mem), readGpr t 2, t.llBit)) =
      some ([0xAA#8, 0xBB#8, 0xCC#8, 0xDD#8, 0x85#8], 1#32, false) := by decide
theorem test_sc_fails : (runWord 0xF004D2C0#32 (start true [(4, 0x1000#32), (2, 5#32)])).map
    (fun t => ((byteSpan 0x1000 5).map (readByte t.mem), readGpr t 2, t.llBit)) =
      some ([0x11#8, 0x22#8, 0x33#8, 0x44#8, 0x85#8], 0#32, false) := by decide

/-- A state with a few coprocessor 0 registers set. -/
def system (c : List (Cp0Reg × Word)) (l : List (RegNum × Word)) : State :=
  { start false l with cp0 := cells c }

/-- Parameters in which K0 programs every access type, code 2 standing for an uncached one. -/
def programmed : Config :=
  { Config.launch with
    defaultCca := .k0
    ccaOfCode := #v[Config.coherentCca, Config.coherentCca, ⟨false, false, false⟩,
      Config.coherentCca, Config.coherentCca, Config.coherentCca, Config.coherentCca,
      Config.coherentCca] }

theorem test_di : cp0After 0xF006670C#32 (system [(statusReg, 0x10000001#32)] []) statusReg =
    some 0x10000000#32 := by decide
theorem test_diRy : regAfter 0xF002674C#32 (system [(statusReg, 0x10000001#32)] []) 2 =
    some 0x10000001#32 := by decide
theorem test_ei : cp0After 0xF007670C#32 (system [(statusReg, 0x10000000#32)] []) statusReg =
    some 0x10000001#32 := by decide
theorem test_eiRy : regAfter 0xF003678C#32 (system [(statusReg, 0x10000000#32)] []) 4 =
    some 0x10000000#32 := by decide
theorem test_dmt : cp0After 0xF0266701#32 (system [(vpeControlReg, 0x00018000#32)] [])
    vpeControlReg = some 0x00010000#32 := by decide
theorem test_dmtRy : regAfter 0xF0226741#32 (system [(vpeControlReg, 0x00008000#32)] []) 2 =
    some 0x00008000#32 := by decide
theorem test_emt : cp0After 0xF0276701#32 (system [] []) vpeControlReg = some 0x00008000#32 := by
  decide
theorem test_emtRy : regAfter 0xF0236761#32 (system [] [(3, 7#32)]) 3 = some 0#32 := by decide
theorem test_dvpe : cp0After 0xF0266700#32
    (system [(mvpControlReg, 1#32), (vpeConf0Reg, 2#32)] []) mvpControlReg = some 0#32 := by decide
theorem test_dvpeRy_not_master : cp0After 0xF0226700#32
    (system [(mvpControlReg, 1#32), (vpeConf0Reg, 0#32)] []) mvpControlReg = some 1#32 := by decide
theorem test_evpe : cp0After 0xF0276700#32 (system [(vpeConf0Reg, 2#32)] []) mvpControlReg =
    some 1#32 := by decide
theorem test_evpeRy : regAfter 0xF02367E0#32 (system [(vpeConf0Reg, 2#32)] [(7, 9#32)]) 7 =
    some 0#32 := by decide
theorem test_mfc0 : regAfter 0xF000674C#32 (system [(statusReg, 0x10000001#32)] []) 2 =
    some 0x10000001#32 := by decide
theorem test_mtc0_hazard : (runWord 0xF001674C#32
    (system [(statusReg, 0x10000000#32)] [(2, 1#32)])).map
      (fun t => (readCp0 t statusReg, t.hazards)) = some (1#32, [(.statusCU0, true)]) := by decide
/-- MTC0 of code 2 to K0 changes the access type of an address that K0 programs (R41, R66). -/
theorem test_mtc0_k0 : (nextOf (exec (.mtc0 2#3 16#5 0#3)
    { system [] [(2, 2#32)] with cfg := programmed })).map (fun t =>
      (translate t .load 0x80001000#32).toOption.map (·.cca)) =
        some (some ⟨false, false, false⟩) := by decide
theorem test_mtc0_userLocal : cp0After 0xF04167A4#32 (system [] [(5, 0x7FFF1000#32)])
    userLocalReg = some 0x7FFF1000#32 := by decide
theorem test_rdhwr_ulr : regAfter 0xF01D304C#32
    { system [(userLocalReg, 0x7FFF1000#32), (hwrEnaReg, 0x20000000#32), (statusReg, 0#32)] [] with
      privileged := false } 2 = some 0x7FFF1000#32 := by decide
theorem test_rdhwr_denied : faultOf (exec (.rdhwr 2#3 29#5)
    { system [(userLocalReg, 0x7FFF1000#32), (statusReg, 0#32)] [] with privileged := false }) =
      some (.trap .reservedInstruction) := by decide
theorem test_ehb : (runWord 0xF0C03010#32
    { system [] [] with hazards := [(.vpeControlTE, true)] }).map (·.hazards) = some [] := by decide
theorem test_pause_blocks : (runWord 0xF1403018#32
    { linked false with cfg := { Config.launch with cp0Regs := [] } }).map
      (fun t => (t.waiting, t.pc, t.llBit)) = some (true, 0x00400000#32, true) := by decide
theorem test_sync_wmb : (runWord 0xF1003014#32
    { system [] [] with cfg := { Config.launch with syncOptional := [4#5] } }).map (·.history) =
      some [.barrier ⟨false, true, false, true, false, false⟩] := by decide
theorem test_cache_hitWritebackInvalidate : (runWord 0xF1F5D4A0#32
    { linked false with gpr := regs [(4, 0x80001020#32)] }).map
      (fun t => (t.llTaint, t.history)) =
        some (true, [.access .cacheop [0x80001000] Config.coherentCca]) := by decide
theorem test_cache_ownLine : faultOf (exec (.cache 0#5 0#9 4#3)
    { system [] [] with cfg := { Config.launch with iGeometry := none } }) =
      some (.unpredictable .cacheOwnLine) := by decide
/-- Hit Writeback Invalidate of the CACHE's own bytes, the geometry of D not supplied (R153). -/
theorem test_cache_ownLine_data : faultOf (exec (.cache 21#5 0#9 4#3)
    (start false [(4, 0x00400002#32)])) = some (.unpredictable .cacheOwnLine) := by decide
/-- Index Load Tag never raises Cache Error (R150). -/
theorem test_cache_tag : (nextOf (exec (.cache 4#5 0#9 4#3)
    { system [] [] with cfg := { Config.launch with cacheOp := Vector.replicate 32 .cacheError } })).map
      (·.pc) = some 0x00400004#32 := by decide
/-- SC to a location that is not synchronizable, with no LL before it (R243, U13). -/
theorem test_sc_unpaired : (nextOf (exec (.sc 2#3 0#9 4#3)
    { start false [(4, 0x1000#32), (2, 5#32)] with
      cfg := { Config.launch with defaultCca := .fixed ⟨true, true, false⟩ } })).map
      (fun t => (readGpr t 2, t.pc)) = some (0#32, 0x00400004#32) := by decide
theorem test_pref_taints : (runWord 0xF000D480#32 (linked false)).map (·.llTaint) =
    some true := by decide
theorem test_pref_release6 : faultOf (exec (.pref 30#5 64#9 5#3)
    { system [] [] with cfg := { Config.launch with archRevision := 6 } }) =
      some (.trap .reservedInstruction) := by decide

/-- The first instruction after reset, placed as the host places it, runs. -/
theorem test_first_instruction : (nextOf (step (State.reset.withFetchWord 32 0xF0106D20))).map
    (fun t => (readGpr t 5, t.pc)) = some (0x80000000#32, 0xBFC00004#32) := by decide
/-- Reset with no program loaded has no program text to fetch from (log 7). -/
theorem test_reset_has_no_program : refusalOf (step State.reset) = some .fetchOutsideText := by
  decide
/-- Another agent's store to the linked word, queued before the next instruction (R76 item 3). -/
theorem test_remote_store : (nextOf (step
    { (linked false).withFetchWord 32 0xF0C03010 with env := [[.store 0x1003 [0x5A#8]]] })).map
      (fun t => (t.llBit, readByte t.mem 0x1003, t.env)) = some (false, 0x5A#8, []) := by decide

/-! ## The hypotheses of the statements can be met -/

/-- The linked state with EHB at the pc, no event and nothing waiting. -/
def ready : State := { (linked false).withFetchWord 32 0xF0C03010 with env := [] }

/-- Parameters with an address of every trouble: 0x1000 does not translate, 0x2000 has a bus error,
0x3000 is watched, 0x4000 is neither cached nor synchronizable, 0x5000 is program text. -/
def trouble : Config :=
  { Config.launch with
    translation :=
      [⟨0x400#30, 0x400#30, [.load, .cacheop, .pref], true, true, .tlbRefill⟩,
       ⟨0x400#30, 0x400#30, [.store], true, true, .tlbModified⟩,
       ⟨0x1000#30, 0x1000#30, [.load, .store, .cacheop, .pref], true, true,
         .map 0x1000 (.fixed ⟨false, false, false⟩)⟩]
    busErrors := [⟨⟨0x2000, 4⟩, true, true⟩]
    watches := [⟨⟨0x3000, 4⟩, true, true⟩]
    text := [⟨0x5000, 4⟩] }

/-- Those parameters, with gp and a0 at an address. -/
def at_ (v : Word) : State := { start false [(28, v), (4, v)] with cfg := trouble }

/-- The access of an address that translates to itself. -/
def plain (v : Word) : Access := ⟨v, v.toNat, Config.coherentCca⟩

/-- The state of an unprivileged program without coprocessor 0 access. -/
def userState : State := { system [(statusReg, 0#32)] [] with privileged := false }

/-- A machine without the MT Module, of Release 6, with one CP0 register. -/
def sparse : State :=
  { system [] [] with
    cfg := { Config.launch with hasMT := false, archRevision := 6, cp0Regs := [Config.plainCp0 12 0] } }

theorem witness_DecodedWordIsItsEncoding : ∃ w i, decodeWord w = .ok i := ⟨_, _, test_decode_ehb⟩

theorem witness_RowsSelectTheirForms :
    ∃ w i, decodeWord w = .ok i ∧ (rowOf i).selects w := ⟨_, _, test_decode_mtc0, rfl⟩

theorem ready_inv : Inv ready where
  memory := by decide
  pcEven := by decide
  zero := by decide
  noDelaySlot := rfl
  hazardSet := by decide
  link := by decide
  seen := fun _ => rfl
  window := by decide
  oneType := .nil
  text := by intro e h; cases h

theorem witness_StepKeepsInvariant : ∃ s t, Inv s ∧ step s = .next t :=
  let ⟨t, h⟩ := exists_next (o := step ready) (by decide)
  ⟨ready, t, ready_inv, h⟩

theorem witness_StepRunsDecodedInstruction :
    ready.env = [] ∧ ∃ a b, deliver ready = .ok ready ∧ ready.waiting = false ∧
      ready.cfg.hasMips16e2 = true ∧ ready.pc.toNat % 2 = 0 ∧ ready.pc ≠ 0xFFFFFFFE#32 ∧
      translate ready .fetch ready.pc = .ok a ∧ translate ready .fetch (ready.pc + 2#32) = .ok b ∧
      (∀ q ∈ [a.pAddr, a.pAddr + 1, b.pAddr, b.pAddr + 1],
        populated ready.cfg q = true ∧ inText ready.cfg q = true) ∧
      decodeBytes ready.cfg.bigEndian
        ([a.pAddr, a.pAddr + 1, b.pAddr, b.pAddr + 1].map (readByte ready.mem)) = .ok .ehb :=
  ⟨rfl, plain 0x400000#32, plain 0x400002#32, rfl, rfl, rfl, by decide, by decide, rfl, rfl,
    by decide, by decide⟩

theorem witness_StepRefusesWhatIsNoInstruction :
    (let s := { ready with mem := [(0x400000, 0x01#8)] }
     ∃ a b e, deliver s = .ok s ∧ s.waiting = false ∧ s.pc.toNat % 2 = 0 ∧ s.pc ≠ 0xFFFFFFFE#32 ∧
      translate s .fetch s.pc = .ok a ∧ translate s .fetch (s.pc + 2#32) = .ok b ∧
      (∀ q ∈ [a.pAddr, a.pAddr + 1, b.pAddr, b.pAddr + 1],
        populated s.cfg q = true ∧ inText s.cfg q = true) ∧
      decodeBytes s.cfg.bigEndian
        ([a.pAddr, a.pAddr + 1, b.pAddr, b.pAddr + 1].map (readByte s.mem)) = .error e) ∧
    (let s := { ready with pc := 0xFFFFFFFF#32 }
     deliver s = .ok s ∧ s.waiting = false ∧ s.pc.toNat % 2 = 1) :=
  ⟨⟨plain 0x400000#32, plain 0x400002#32, .notExtend, rfl, rfl, by decide, by decide, rfl, rfl,
    by decide, by decide⟩, rfl, rfl, by decide⟩

theorem witness_StepKeepsUnreachableState :
    ∃ s t, step s = .next t ∧ s.cfg.xLat = #v[16, 17, 2, 3, 4, 5, 6, 7] ∧
      ∀ f : RegField, xLat s.cfg f ≠ 28 :=
  let ⟨t, h⟩ := exists_next (o := step ready) (by decide)
  ⟨ready, t, h, rfl, by decide⟩

theorem witness_StepKeepsProgramText :
    ∃ s t, Memory.wf s.mem = true ∧ step s = .next t ∧ inText s.cfg 0x400000 = true :=
  let ⟨t, h⟩ := exists_next (o := step ready) (by decide)
  ⟨ready, t, by decide, h, by decide⟩

theorem witness_UnprivilegedCannotReachCop0 : ∃ s t, cop0Denied s ∧ step s = .next t :=
  let ⟨t, h⟩ := exists_next (o := step (userState.withFetchWord 32 0xF0106D20)) (by decide)
  ⟨userState.withFetchWord 32 0xF0106D20, t, ⟨rfl, by decide, by decide⟩, h⟩

theorem witness_CompletionAdvancesPc :
    (∃ t, exec .ehb ready = .next t) ∧ ∃ t, exec .pause ready = .next t ∧ ready.llBit = true :=
  ⟨exists_next rfl, _, rfl, rfl⟩

theorem witness_OnlyLlSetsLlbit :
    (∃ s i t, exec i s = .next t ∧ t.llBit = true ∧ s.llBit = false) ∧
    ∃ s i t, exec i s = .next t ∧ (!t.llBit) = true ∧ s.llBit = true :=
  ⟨⟨start false [], .ll 2#3 0#9 4#3, by
      obtain ⟨t, h, b⟩ := exists_next_such (o := exec (.ll 2#3 0#9 4#3) (start false [])) (·.llBit)
        (by decide)
      exact ⟨t, h, b, rfl⟩⟩,
   linked false, .sc 2#3 0#9 4#3, by
      obtain ⟨t, h, b⟩ := exists_next_such (o := exec (.sc 2#3 0#9 4#3) (linked false))
        (fun t => !t.llBit) (by decide)
      exact ⟨t, h, b, rfl⟩⟩

theorem witness_OnlyStoringFormsWriteMemory :
    ∃ i s t, canStore i = false ∧ exec i s = .next t :=
  ⟨.lw 4#3 0#16, start false [(28, 0x1000#32)], _, rfl, rfl⟩

theorem witness_OnlyListedExceptions : ∃ i s e, exec i s = .fault (.trap e) :=
  ⟨.sh 3#3 7#16, start false [(28, 0x1000#32)], _, rfl⟩

theorem witness_ExtResult :
    31 < (8#5).toNat + (24#5).toNat ∧ ¬ 31 < (8#5).toNat + (23#5).toNat ∧
      (nextOf (exec (.ext 2#3 4#3 8#5 23#5) ready)).isSome = true := by decide

theorem witness_InsResults :
    (8#5).toNat < (9#5).toNat ∧ ¬ (8#5).toNat < (8#5).toNat ∧
      (nextOf (exec (.ins 2#3 4#3 8#5 8#5) ready)).isSome = true := by decide

theorem witness_ExtThenInsMovesField : ∃ lsb msbd msb : BitVec 5, ∃ rz ry : RegField,
    xLat ready.cfg ry ≠ 0 ∧ xLat ready.cfg rz ≠ 0 ∧
    lsb.toNat + msbd.toNat ≤ 31 ∧ msb.toNat = lsb.toNat + msbd.toNat ∧
    xLat ready.cfg rz ≠ xLat ready.cfg ry :=
  ⟨8#5, 23#5, 31#5, 2#3, 3#3, by decide⟩

theorem witness_ComplementaryMovesSelect : ∃ rx rb ry : RegField,
    xLat ready.cfg rb ≠ xLat ready.cfg rx ∧ xLat ready.cfg rx ≠ xLat ready.cfg ry ∧
    xLat ready.cfg rx ≠ 24 :=
  ⟨2#3, 3#3, 4#3, by decide⟩

/-- The last word of the address space, each access at its highest address. -/
theorem witness_GpLoadResults :
    let s := start false [(28, 0xFFFFFFFC#32)]
    busErrorAt s.cfg .load 0xFFFFFFFC = false ∧
    CanRead s 0xFFFFFFFF#32 (plain 0xFFFFFFFF#32) [0xFFFFFFFF] ∧
    CanRead s 0xFFFFFFFE#32 (plain 0xFFFFFFFE#32) [0xFFFFFFFE, 0xFFFFFFFF] ∧
    CanRead s 0xFFFFFFFC#32 (plain 0xFFFFFFFC#32)
      [0xFFFFFFFC, 0xFFFFFFFD, 0xFFFFFFFE, 0xFFFFFFFF] :=
  ⟨rfl, ⟨rfl, by decide, rfl⟩, ⟨rfl, by decide, rfl⟩, ⟨rfl, by decide, rfl⟩⟩

theorem witness_GpLoadExceptions :
    (0x1001#32).toNat % 2 = 1 ∧ (0x1002#32).toNat % 4 ≠ 0 ∧
    translate (at_ 0x1000#32) .load 0x1000#32 = .error (.tlbRefill .load 0x1000#32) ∧
    translate (at_ 0x2000#32) .load 0x2000#32 = .ok (plain 0x2000#32) ∧
    busErrorAt trouble .load 0x2000 = true ∧ busErrorAt trouble .load 0x2004 = false :=
  ⟨by decide, by decide, rfl, rfl, rfl, rfl⟩

theorem witness_LlResult :
    let s := start false [(4, 0xFFFFFFFC#32)]
    (readGpr s (xLat s.cfg 4#3) + (0#9).signExtend 32).toNat % 4 = 0 ∧
    CanRead s (readGpr s (xLat s.cfg 4#3) + (0#9).signExtend 32) (plain 0xFFFFFFFC#32)
      [0xFFFFFFFC, 0xFFFFFFFD, 0xFFFFFFFE, 0xFFFFFFFF] ∧
    watchAt s.cfg .load 0xFFFFFFFC#32 = false ∧ (plain 0xFFFFFFFC#32).cca.synchronizable = true :=
  ⟨by decide, ⟨by decide, by decide, rfl⟩, rfl, rfl⟩

theorem witness_LinkedExceptions :
    (0x1001#32).toNat % 4 ≠ 0 ∧ (0x1000#32).toNat % 4 = 0 ∧
    translate (at_ 0x1000#32) .load 0x1000#32 = .error (.tlbRefill .load 0x1000#32) ∧
    translate (at_ 0x1000#32) .store 0x1000#32 = .error (.tlbModified 0x1000#32) ∧
    watchAt trouble .load 0x3000#32 = true ∧ watchAt trouble .store 0x3000#32 = true ∧
    translate (at_ 0x3000#32) .load 0x3000#32 = .ok (plain 0x3000#32) ∧
    translate (at_ 0x3000#32) .store 0x3000#32 = .ok (plain 0x3000#32) ∧
    (∃ a, translate (at_ 0x4000#32) .load 0x4000#32 = .ok a ∧
      translate (at_ 0x4000#32) .store 0x4000#32 = .ok a ∧ a.cca.synchronizable = false ∧
      watchAt trouble .load 0x4000#32 = false ∧ watchAt trouble .store 0x4000#32 = false ∧
      let s := { at_ 0x4000#32 with llBit := true, llAddr := a }
      Machine.translate s .store 0x4000#32 = .ok a ∧ s.llBit = true ∧ a = s.llAddr) :=
  ⟨by decide, by decide, rfl, rfl, rfl, rfl, rfl, rfl, _, rfl, rfl, rfl, rfl, rfl, rfl, rfl, rfl⟩

theorem witness_UnalignedLoadResults : ∀ be : Bool, ∀ b < 4,
    let s := start be [(4, 0x1000#32)]
    let v := 0x1000#32 + BitVec.ofNat 32 b
    watchAt s.cfg .load v = false ∧ busErrorAt s.cfg .load v.toNat = false ∧
    CanRead s v (plain v) (leftSpan be v.toNat b) ∧
    CanRead s v (plain v) (rightSpan be v.toNat b) := by
  intro be b h
  interval_cases b <;> cases be <;>
    exact ⟨rfl, rfl, ⟨rfl, by decide, rfl⟩, ⟨rfl, by decide, rfl⟩⟩

/-- The pair at a misaligned address, both immediates at the end of their range, in either order. -/
theorem witness_UnalignedPairLoadsWord : ∀ be : Bool,
    let s := start be [(4, 0xF05#32)]
    let v := readGpr s (xLat s.cfg 4#3) + (252#9).signExtend 32
    let whole := (List.range 4).map fun k => (v + BitVec.ofNat 32 k).toNat
    xLat s.cfg 2#3 ≠ xLat s.cfg 4#3 ∧ (255#9).signExtend 32 = (252#9).signExtend 32 + 3#32 ∧
    s.cfg.translation = [] ∧ s.cfg.watches = [] ∧ s.cfg.busErrors = [] ∧ v = 0x1001#32 ∧
    (∀ q ∈ whole, populated s.cfg q = true) ∧ typeConflict s whole (ccaFrom s s.cfg.defaultCca) = false ∧
    s.cfg.bigEndian = be := by decide

theorem witness_UnalignedExceptions :
    translate (at_ 0x1000#32) .load 0x1001#32 = .error (.tlbRefill .load 0x1001#32) ∧
    translate (at_ 0x1000#32) .store 0x1001#32 = .error (.tlbModified 0x1001#32) ∧
    (∃ a, translate (at_ 0x3000#32) .load 0x3001#32 = .ok a ∧
      watchAt trouble .load 0x3001#32 = true ∧ watchAt trouble .store 0x3001#32 = true ∧
      translate (at_ 0x3000#32) .store 0x3001#32 = .ok a) ∧
    ∃ a, translate (at_ 0x2000#32) .load 0x2003#32 = .ok a ∧
      translate (at_ 0x2000#32) .store 0x2003#32 = .ok a ∧
      watchAt trouble .load 0x2003#32 = false ∧ watchAt trouble .store 0x2003#32 = false ∧
      busErrorAt trouble .load a.pAddr = true ∧ busErrorAt trouble .store a.pAddr = true :=
  ⟨rfl, rfl, ⟨_, rfl, rfl, rfl, rfl⟩, _, rfl, rfl, rfl, rfl, rfl, rfl⟩

theorem witness_GpStoreResults :
    let s := start false [(28, 0xFFFFFFFC#32)]
    Memory.wf s.mem = true ∧ busErrorAt s.cfg .store 0xFFFFFFFC = false ∧
    CanWrite s 0xFFFFFFFF#32 (plain 0xFFFFFFFF#32) [0xFFFFFFFF] ∧
    CanWrite s 0xFFFFFFFE#32 (plain 0xFFFFFFFE#32) [0xFFFFFFFE, 0xFFFFFFFF] ∧
    CanWrite s 0xFFFFFFFC#32 (plain 0xFFFFFFFC#32)
      [0xFFFFFFFC, 0xFFFFFFFD, 0xFFFFFFFE, 0xFFFFFFFF] :=
  ⟨by decide, rfl, ⟨rfl, by decide, rfl, by decide⟩, ⟨rfl, by decide, rfl, by decide⟩,
    ⟨rfl, by decide, rfl, by decide⟩⟩

theorem witness_GpStoreExceptions :
    (0x1001#32).toNat % 2 = 1 ∧ (0x1002#32).toNat % 4 ≠ 0 ∧
    translate (at_ 0x1000#32) .store 0x1000#32 = .error (.tlbModified 0x1000#32) ∧
    (translate (at_ 0x2000#32) .store 0x2000#32 = .ok (plain 0x2000#32) ∧
      busErrorAt trouble .store 0x2000 = true) ∧
    translate (at_ 0x5003#32) .store 0x5003#32 = .ok (plain 0x5003#32) ∧
    busErrorAt trouble .store 0x5003 = false ∧ populated trouble 0x5003 = true ∧
    typeConflict (at_ 0x5003#32) [0x5003] Config.coherentCca = false ∧
    inText trouble 0x5003 = true ∧
    ((0x5002#32).toNat % 2 = 0 ∧ translate (at_ 0x5002#32) .store 0x5002#32 = .ok (plain 0x5002#32) ∧
      busErrorAt trouble .store 0x5002 = false ∧
      (∀ q ∈ [0x5002, 0x5003], populated trouble q = true) ∧
      typeConflict (at_ 0x5002#32) [0x5002, 0x5003] Config.coherentCca = false) ∧
    ((0x5000#32).toNat % 4 = 0 ∧ translate (at_ 0x5000#32) .store 0x5000#32 = .ok (plain 0x5000#32) ∧
      busErrorAt trouble .store 0x5000 = false ∧
      (∀ q ∈ [0x5000, 0x5001, 0x5002, 0x5003], populated trouble q = true) ∧
      typeConflict (at_ 0x5000#32) [0x5000, 0x5001, 0x5002, 0x5003] Config.coherentCca = false) :=
  ⟨by decide, by decide, rfl, ⟨rfl, rfl⟩, rfl, rfl, by decide, rfl, by decide,
    ⟨by decide, rfl, rfl, by decide, rfl⟩, by decide, rfl, rfl, by decide, rfl⟩

theorem witness_UnalignedStoreResults : ∀ be : Bool, ∀ b < 4,
    let s := start be [(4, 0x1000#32)]
    let v := 0x1000#32 + BitVec.ofNat 32 b
    Memory.wf s.mem = true ∧ watchAt s.cfg .store v = false ∧
    busErrorAt s.cfg .store v.toNat = false ∧
    CanWrite s v (plain v) ((leftCells be v.toNat b 7#32).map (·.1)) ∧
    CanWrite s v (plain v) ((rightCells be v.toNat b 7#32).map (·.1)) := by
  intro be b h
  interval_cases b <;> cases be <;>
    exact ⟨by decide, rfl, rfl, ⟨rfl, by decide, rfl, by decide⟩, ⟨rfl, by decide, rfl, by decide⟩⟩

theorem witness_UnalignedPairStoresWord : ∀ be : Bool,
    let s := start be [(4, 0xF05#32)]
    let v := readGpr s (xLat s.cfg 4#3) + (252#9).signExtend 32
    let whole := (List.range 4).map fun k => (v + BitVec.ofNat 32 k).toNat
    xLat s.cfg 2#3 ≠ xLat s.cfg 4#3 ∧ (255#9).signExtend 32 = (252#9).signExtend 32 + 3#32 ∧
    Memory.wf s.mem = true ∧
    s.cfg.translation = [] ∧ s.cfg.watches = [] ∧ s.cfg.busErrors = [] ∧
    (∀ q ∈ whole, populated s.cfg q = true ∧ inText s.cfg q = false) ∧
    typeConflict s whole (ccaFrom s s.cfg.defaultCca) = false ∧ s.cfg.bigEndian = be := by decide

/-- SC at an address that translates to itself opens. -/
theorem linked_opens : ScOpens (linked false) 0#9 4#3 (plain 0x1000#32) :=
  ⟨by decide, by decide, by decide, fun _ _ => rfl⟩

theorem linked_writes : CanWrite (linked false)
    (readGpr (linked false) (xLat (linked false).cfg 4#3) + (0#9).signExtend 32) (plain 0x1000#32)
    [0x1000, 0x1001, 0x1002, 0x1003] := ⟨by decide, by decide, rfl, by decide⟩

theorem witness_ScSucceedsWhenIntact :
    Memory.wf (linked false).mem = true ∧ ScOpens (linked false) 0#9 4#3 (plain 0x1000#32) ∧
    CanWrite (linked false) (readGpr (linked false) (xLat (linked false).cfg 4#3) + (0#9).signExtend 32)
      (plain 0x1000#32) [0x1000, 0x1001, 0x1002, 0x1003] ∧
    (linked false).llBit = true ∧ plain 0x1000#32 = (linked false).llAddr ∧
    (linked false).llTaint = false ∧ inWindow (linked false) :=
  ⟨by decide, linked_opens, linked_writes, rfl, rfl, rfl, by unfold inWindow; decide⟩

theorem witness_ScFailsWithoutLink :
    (let s := start false [(4, 0x1000#32)]
     ScOpens s 0#9 4#3 (plain 0x1000#32) ∧ s.llBit = false ∧ config5LLB s = true) ∧
    (let s := { linked false with llBit := false, cp0 := cells [(config5Reg, 0#32)] }
     ScOpens s 0#9 4#3 (plain 0x1000#32) ∧ s.llBit = false ∧ s.llSeen = true ∧
      config5LLB s = false) ∧
    (ScOpens (linked false) 4#9 4#3 (plain 0x1004#32) ∧
      plain 0x1004#32 ≠ (linked false).llAddr ∧ config5LLB (linked false) = true) :=
  ⟨⟨⟨by decide, by decide, by decide, fun _ _ => rfl⟩, rfl, by decide⟩,
    ⟨⟨by decide, by decide, by decide, fun _ _ => rfl⟩, rfl, rfl, by decide⟩,
    ⟨by decide, by decide, by decide, fun _ _ => rfl⟩, by decide, by decide⟩

/-- The linked state with a taint, and with an instruction 2049 bytes away; a state with no LL yet. -/
theorem witness_ScIsDrawnWhenWeakened :
    (let s := { linked false with cp0 := cells [(config5Reg, 0#32)] }
     ScOpens s 4#9 4#3 (plain 0x1004#32) ∧ plain 0x1004#32 ≠ s.llAddr ∧ config5LLB s = false ∧
      CanWrite s 0x1004#32 (plain 0x1004#32) [0x1004, 0x1005, 0x1006, 0x1007]) ∧
    (let s := { linked false with llTaint := true }
     s.llTaint = true ∧ ScOpens s 0#9 4#3 (plain 0x1000#32)) ∧
    (let s := { linked false with llHi := 0x00400800#32 }
     ¬ inWindow s ∧ ScOpens s 0#9 4#3 (plain 0x1000#32)) ∧
    (let s := { start false [(4, 0x1000#32)] with cp0 := cells [(config5Reg, 0#32)] }
     ScOpens s 0#9 4#3 (plain 0x1000#32) ∧ s.llBit = false ∧ s.llSeen = false ∧
      config5LLB s = false ∧
      CanWrite s 0x1000#32 (plain 0x1000#32) [0x1000, 0x1001, 0x1002, 0x1003]) ∧
    inWindow { linked false with llHi := 0x004007FF#32 } :=
  ⟨⟨⟨by decide, by decide, by decide, fun _ _ => rfl⟩, by decide, by decide,
      ⟨by decide, by decide, rfl, by decide⟩⟩,
    ⟨rfl, ⟨by decide, by decide, by decide, fun _ _ => rfl⟩⟩,
    ⟨by unfold inWindow; decide, ⟨by decide, by decide, by decide, fun _ _ => rfl⟩⟩,
    ⟨⟨by decide, by decide, by decide, fun _ _ => rfl⟩, rfl, rfl, by decide,
      ⟨by decide, by decide, rfl, by decide⟩⟩,
    by unfold inWindow; decide⟩

theorem witness_LlThenScSucceeds :
    xLat (linked false).cfg 2#3 ≠ xLat (linked false).cfg 4#3 ∧ (linked false).pc.toNat + 8 ≤ 2 ^ 32 ∧
    Memory.wf (linked false).mem = true ∧
    CanRead (linked false) (readGpr (linked false) (xLat (linked false).cfg 4#3) + (0#9).signExtend 32)
      (plain 0x1000#32) [0x1000, 0x1001, 0x1002, 0x1003] ∧
    CanWrite (linked false) (readGpr (linked false) (xLat (linked false).cfg 4#3) + (0#9).signExtend 32)
      (plain 0x1000#32) [0x1000, 0x1001, 0x1002, 0x1003] ∧
    watchAt (linked false).cfg .load 0x1000#32 = false ∧
    watchAt (linked false).cfg .store 0x1000#32 = false :=
  ⟨by decide, by decide, by decide, ⟨by decide, by decide, rfl⟩, linked_writes, rfl, rfl⟩

theorem witness_RemoteStoreClearsLlbit :
    let s := { linked false with env := [[.store 0x1003 [0x5A#8, 0#8]]] }
    s.env = [[.store 0x1003 [0x5A#8, 0#8]]] ∧ Memory.wf s.mem = true ∧ s.llBit = true ∧
    (∀ k < 2, populated s.cfg (0x1003 + k) = true ∧ inText s.cfg (0x1003 + k) = false) ∧
    inLinkBlock s 0x1003 = true ∧ inLinkBlock s 0x1004 = false := by decide

theorem witness_DiEiResults : cop0Sure (system [] []) ∧
    cop0Sure { system [(statusReg, 0x10000000#32)] [] with privileged := false } :=
  ⟨.inl rfl, .inr (by decide)⟩

theorem witness_DmtEmtResults : cop0Sure (system [] []) ∧ (system [] []).cfg.hasMT = true ∧
    hazardOpen (system [] []) .vpeControlTE = false := ⟨.inl rfl, rfl, rfl⟩

theorem witness_DvpeEvpeResults : cop0Sure (system [] []) ∧ (system [] []).cfg.hasMT = true ∧
    masterVpe (system [] []) = true ∧ masterVpe (system [(vpeConf0Reg, 0#32)] []) = false ∧
    hazardOpen (system [] []) .mvpControlEVP = false := ⟨.inl rfl, rfl, by decide, by decide, rfl⟩

theorem witness_CoprocessorUnusable : ∃ i s, needsCop0 i = true ∧ cop0Denied s :=
  ⟨.di, userState, rfl, rfl, by decide, by decide⟩

theorem witness_ReservedWithoutMt :
    ∃ i s, needsMT i = true ∧ cop0Sure s ∧ s.cfg.hasMT = false :=
  ⟨.evpe, sparse, rfl, .inl rfl, rfl⟩

theorem witness_Mfc0Results :
    (cop0Sure sparse ∧ cp0Implemented sparse.cfg statusReg = true) ∧
    (cp0Implemented sparse.cfg countReg = false ∧ 6 ≤ sparse.cfg.archRevision) ∧
    (cop0Sure ready ∧ cp0Implemented ready.cfg ⟨31#5, 7#3⟩ = false ∧
      ¬ 6 ≤ ready.cfg.archRevision) :=
  ⟨⟨.inl rfl, by decide⟩, by decide, .inl rfl, by decide, by decide⟩

theorem witness_Mtc0Results :
    cop0Sure ready ∧ cp0Implemented ready.cfg llAddrReg = true ∧
    cp0Implemented ready.cfg ⟨31#5, 7#3⟩ = false ∧
    (transEntry programmed true .load 0x1000#32).result = .map 0 .k0 ∧
    (transEntry { programmed with defaultCca := .k23 } true .load 0x1000#32).result = .map 0 .k23 :=
  ⟨.inl rfl, by decide, by decide, rfl, rfl⟩

theorem witness_EhbClosesDmtWindow :
    cop0Sure ready ∧ ready.cfg.hasMT = true ∧ xLat ready.cfg 2#3 ≠ 0 ∧
    cp0Implemented ready.cfg vpeControlReg = true := ⟨.inl rfl, rfl, by decide, by decide⟩

theorem witness_RdhwrResults :
    (cop0Sure ready ∧ ready.cfg.hwr31 = true) ∧
    (cop0Denied userState ∧ (readCp0 userState hwrEnaReg).getLsbD 31 = false) ∧
    faultOf (exec (.rdhwr 2#3 4#5) ready) = some (.trap .reservedInstruction) :=
  ⟨⟨.inl rfl, rfl⟩, ⟨⟨rfl, by decide, by decide⟩, by decide⟩, by decide⟩

theorem witness_PauseResult :
    ready.inDelaySlot = false ∧ ready.llBit = true ∧ (start false []).inDelaySlot = false ∧
    (start false []).llBit = false := by decide

theorem witness_PauseInDelaySlot :
    ({ ready with inDelaySlot := true } : State).inDelaySlot = true ∧ ready.inDelaySlot = false ∧
      ∃ t, exec .ehb ready = .next t := ⟨rfl, rfl, _, rfl⟩

/-- A blocked stream with no event, and one that another agent's store to the linked word wakes. -/
theorem witness_BlockedStreamWaits :
    (∀ link early : Bool,
      let s := { ready with waiting := true, llBit := link
                            cfg := { Config.launch with pauseMayResumeEarly := early } }
      deliver s = .ok s ∧ s.waiting = true ∧ s.llBit = link ∧ s.cfg.pauseMayResumeEarly = early) ∧
    let s := { linked false with waiting := true, env := [[.store 0x1003 [0x5A#8]]] }
    ∃ u, deliver s = .ok u ∧ u.waiting = true ∧ u.llBit = false :=
  ⟨fun _ _ => ⟨rfl, rfl, rfl, rfl⟩, _, rfl, rfl, rfl⟩

theorem witness_SyncResult :
    (4#5 ∉ Config.launch.syncOptional ∧ 3#5 ∉ Config.launch.syncVendor.map (·.1)) ∧
    let cfg := { Config.launch with
      syncOptional := [19#5], syncVendor := [(15#5, ⟨true, false, false, false, false, false⟩),
                     (31#5, ⟨false, true, false, false, false, false⟩)] }
    19#5 ∈ cfg.syncOptional ∧
    (∃ v, cfg.syncVendor.find? (fun e => e.1 = 15#5) = some (15#5, v)) ∧
    ∃ v, cfg.syncVendor.find? (fun e => e.1 = 31#5) = some (31#5, v) :=
  ⟨by decide, by decide, ⟨_, rfl⟩, _, rfl⟩

theorem witness_SyncOrdersItsRow : ∀ strong : Bool,
    let cfg := { Config.launch with
      stronglyOrdered := strong, syncOptional := [4#5, 16#5, 17#5, 18#5, 19#5] }
    cfg.stronglyOrdered = strong ∧ barrierAffects Config.coherentCca = true ∧
      AccessKind.load ≠ .fetch ∧ AccessKind.store ≠ .fetch ∧
      ∀ n ∈ [4#5, 16#5, 17#5, 18#5, 19#5], n ∈ cfg.syncOptional := by decide

/-- The two stores on a system of either kind, and times that the rules admit: each event performed with
respect to every agent at its own number. -/
theorem witness_SyncOrdersTwoStores :
    (∀ strong : Bool, ∃ t u w,
      exec (.sw 2#3 0#16) { start false [(28, 0x1000#32)] with
        cfg := { Config.launch with stronglyOrdered := strong } } = .next t ∧
      exec (.sync 0#5) t = .next u ∧ exec (.sw 3#3 4#16) u = .next w) ∧
    ∀ cfg history, Admitted cfg history [0, 1] fun i _ => i := by
  refine ⟨fun strong => by cases strong <;> exact ⟨_, _, _, rfl, rfl, rfl⟩, ?_⟩
  intro cfg history newer between older a b _
  have h : older.length < (between ++ a :: older).length := by
    rw [List.length_append, List.length_cons]; omega
  exact ⟨fun _ _ _ _ _ => h, fun _ p hp => ⟨p, hp, h⟩, fun _ _ _ _ _ => h⟩

/-- On a strongly ordered system no SYNC forbids that agent 1 sees every access later than agent 0 sees
the next ones (R73, R198). -/
theorem test_sync_strong : ∀ history,
    Admitted { Config.launch with stronglyOrdered := true } history [0, 1] fun i p => i + 10 * p := by
  intro history
  rw [admitted_strong rfl]
  intro newer between older a b _ _ _ p _
  rw [List.length_append, List.length_cons]; omega

/-- Parameters that give every pair one effect. -/
def allOps (e : CacheEffect) : Config := { trouble with cacheOp := Vector.replicate 32 e }

theorem witness_CacheResult :
    cop0Sure ready ∧ translate ready .cacheop 0x1000#32 = .ok (plain 0x1000#32) ∧
    ready.cfg.cacheOp[(21#5).toFin] = .keep ∧ (plain 0x1000#32).cca.cached = true ∧
    mayHitOwnLine ready 21#5 (plain 0x1000#32) = false ∧
    ready.cfg.cacheOp[(7#5).toFin] = .loadTag ∧
    mayHitOwnLine ready 7#5 (plain 0x1000#32) = false ∧
    (allOps .cacheError).cacheOp[(4#5).toFin] = .cacheError :=
  ⟨.inl rfl, rfl, by decide, rfl, by decide, by decide, by decide, by decide⟩

theorem witness_CacheOutcomes :
    cop0Sure (at_ 0x1000#32) ∧
    translate (at_ 0x1000#32) .cacheop 0x1000#32 = .error (.tlbRefill .load 0x1000#32) ∧
    translate (at_ 0x6000#32) .cacheop 0x6000#32 = .ok (plain 0x6000#32) ∧
    (trouble.cacheOp[(24#5).toFin] = .notImplemented ∧
      Config.cacheOpAbsent[(31#5).toFin] = .absent) ∧
    (trouble.cacheOp[(16#5).toFin] = .keep ∧ trouble.cacheOp[(31#5).toFin] = .notImplemented ∧
      ∃ a, translate (at_ 0x4000#32) .cacheop 0x4000#32 = .ok a ∧ a.cca.cached = false) ∧
    ({ trouble with iGeometry := none } : Config).iGeometry = none ∧
    trouble.cacheOp[(8#5).toFin] = .refuse ∧
    mayHitOwnLine (at_ 0x6000#32) 8#5 (plain 0x6000#32) = false ∧
    mayHitOwnLine (at_ 0x6000#32) 31#5 (plain 0x6000#32) = false ∧
    (allOps .busError).cacheOp[(31#5).toFin] = .busError ∧
    (allOps .cacheError).cacheOp[(31#5).toFin] = .cacheError ∧
    (∀ op ∈ [16#5, 17#5, 18#5, 19#5, 21#5, 22#5, 23#5],
      mayHitOwnLine (at_ 0#32) op (plain 0x00400003#32) = true) ∧
    translate (at_ 0#32) .fetch ((at_ 0#32).pc + BitVec.ofNat 32 3) = .ok (plain 0x00400003#32) :=
  ⟨.inl rfl, rfl, rfl, by decide, ⟨by decide, by decide, _, rfl, rfl⟩, rfl, by decide, by decide,
    by decide, by decide, by decide, by decide, rfl⟩

theorem witness_PrefResult :
    (ready.cfg.archRevision < 6 ∨ (31#5).toNat < 24) ∧
    (sparse.cfg.archRevision < 6 ∨ (23#5).toNat < 24) ∧
    translate (at_ 0x1000#32) .pref 0x1000#32 = .error (.tlbRefill .load 0x1000#32) ∧
    (∃ a, translate (at_ 0x4000#32) .pref 0x4000#32 = .ok a ∧ a.cca.cached = false) ∧
    ∃ a, translate (at_ 0x2000#32) .pref 0x2000#32 = .ok a ∧ a.cca.cached = true ∧
      (31#5 : BitVec 5) ≠ 30#5 :=
  ⟨by decide, by decide, rfl, ⟨_, rfl, rfl⟩, _, rfl, rfl, by decide⟩

theorem witness_PrepareForStoreResult :
    let s := start false [(4, 0x101F#32)]
    let line := 0x101F / 2 ^ 5 * 2 ^ 5
    s.cfg.archRevision < 6 ∧ Memory.wf s.mem = true ∧ s.cfg.cacheLineLog2 = some 5 ∧
    translate s .pref 0x101F#32 = .ok (plain 0x101F#32) ∧
    (plain 0x101F#32).cca.cached = true ∧
    (∀ k < 2 ^ 5, populated s.cfg (line + k) = true ∧ inText s.cfg (line + k) = false) ∧
    typeConflict s ((List.range (2 ^ 5)).map (line + ·)) (plain 0x101F#32).cca = false :=
  ⟨by decide, by decide, rfl, rfl, rfl, by decide, rfl⟩

theorem witness_PrefReservedHints : 6 ≤ sparse.cfg.archRevision ∧ 24 ≤ (24#5).toNat := by decide

end Sys2Proof.Tests
end

section
/-! The family State (10_state.md): what a step can do, said once as a sequence of single
updates, and the statements derived from it. -/

namespace Sys2Proof.Machine

/-! ## The single updates an instruction is made of -/

/-- One update of the state that the instruction `i` may make, with the checks that stand before it.
The stores and what ends a link are of the storing forms alone, the opening of a link of LL alone. -/
inductive InstrUpdate (i : Instr) : State → State → Prop where
  | register (s : State) (f : RegField) (v : Word) : InstrUpdate i s (writeX s f v)
  | cp0 (s : State) (r : Cp0Reg) (v : Word) : InstrUpdate i s (writeCp0 s r v)
  | draw (s : State) : InstrUpdate i s (drawn s)
  | openHazard (s : State) (f : HazardField) (b : Bool) : InstrUpdate i s (addHazard s f b)
  | closeHazards (s : State) : InstrUpdate i s (clearHazards s)
  | noData (s : State) (e : MemEvent) (h : dataAccess e = none) : InstrUpdate i s (record s e)
  | load (s : State) (a : Access) (bs : List Nat) (h : checkBytes s a bs = .ok ()) :
      InstrUpdate i s (record s (.access .load bs a.cca))
  | store (s : State) (a : Access) (cs : List (Nat × Byte)) (hi : canStore i = true)
      (h : checkCells s a cs = .ok ()) : InstrUpdate i s (putCells s a cs)
  | seeLoad (s : State) (a : Access) : InstrUpdate i s (noteLoad s a)
  | seeStore (s : State) (inBlock coherent : Bool) (hi : canStore i = true) :
      InstrUpdate i s (noteStoreIn s inBlock coherent)
  | taint (s : State) : InstrUpdate i s (taintLink s)
  | unlink (s : State) (hi : canStore i = true) : InstrUpdate i s (clearLink s)
  | link (s : State) (a : Access) (hi : ∃ rx imm rb, i = .ll rx imm rb)
      (hv : a.vAddr.toNat % 4 = 0) (hp : a.pAddr % 4 = 0) (hs : a.cca.synchronizable = true) :
      InstrUpdate i s (setLink s a)

/-- Any number of updates of one instruction. -/
abbrev InstrUpdates (i : Instr) : State → State → Prop := Relation.ReflTransGen (InstrUpdate i)

/-- How an instruction that completes ends: its updates, then the pc moved on, or the stream blocked by
a PAUSE that finds `LLbit` 1. -/
def Completes (i : Instr) (s t : State) : Prop :=
  ∃ u, InstrUpdates i s u ∧
    (t = advance u ∨ (i = .pause ∧ s.llBit = true ∧ t = { u with waiting := true }))

theorem completes_advance {i : Instr} {s u : State} (h : InstrUpdates i s u) :
    Completes i s (advance u) := ⟨u, h, .inl rfl⟩

/-! ## The updates of the shared operations -/

theorem writeX_updates (i : Instr) (s : State) (f : RegField) (v : Word) :
    InstrUpdates i s (writeX s f v) := .single (.register s f v)

/-- The test of coprocessor 0 access is at most a draw. -/
theorem cop0State_updates (i : Instr) (s : State) : InstrUpdates i s (cop0State s) := by
  rcases cop0State_eq s with h | h <;> rw [h]
  exact .single (.draw s)

theorem changeField_updates (i : Instr) (s : State) (f : HazardField) (v : Bool) :
    InstrUpdates i s (changeField s f v) :=
  .tail (.single (.cp0 ..)) (.openHazard ..)

theorem changeEvp_updates (i : Instr) (s : State) (v : Bool) : InstrUpdates i s (changeEvp s v) := by
  unfold changeEvp
  split
  · exact changeField_updates ..
  · exact .single (.openHazard ..)

theorem copyOld_updates (i : Instr) (s : State) (f : RegField) (r : Cp0Reg) :
    InstrUpdates i s (copyOld s f r) := by
  unfold copyOld
  rcases cp0ReadState_eq s r with h | h <;> rw [h]
  · exact writeX_updates ..
  · exact .tail (.single (.draw s)) (.register ..)

theorem mtc0Write_updates (i : Instr) (s : State) (r : Cp0Reg) (d : Word) :
    InstrUpdates i s (mtc0Write s r d) := by
  simp only [mtc0Write]
  split
  · exact .tail (.single (.cp0 ..)) (.openHazard ..)
  · exact .single (.cp0 ..)

/-- A read of a hardware register draws at most once and changes nothing else. -/
theorem hwrState_eq (s : State) (n : BitVec 5) : hwrState s n = s ∨ hwrState s n = drawn s := by
  unfold hwrState
  split
  iterate 3 exact .inr rfl
  exact .inl rfl

theorem hwrState_updates (i : Instr) (s : State) (n : BitVec 5) : InstrUpdates i s (hwrState s n) := by
  rcases hwrState_eq s n with h | h <;> rw [h]
  exact .single (.draw s)

theorem loadBytes_updates (i : Instr) {s t : State} {a : Access} {bs : List Nat}
    (h : loadBytes s a bs = .ok t) : InstrUpdates i s t := by
  obtain ⟨hc, rfl⟩ := loadBytes_ok h
  exact .tail (.single (.seeLoad s a)) (.load (noteLoad s a) a bs hc)

theorem storeBytes_updates {i : Instr} (hi : canStore i = true) {s t : State} {a : Access}
    {cs : List (Nat × Byte)} (h : storeBytes s a cs = .ok t) : InstrUpdates i s t := by
  obtain ⟨hc, rfl⟩ := storeBytes_ok h
  exact .tail (.single (.store s a cs hi hc)) (.seeStore _ _ _ hi)

theorem prepareForStore_updates {i : Instr} (hi : canStore i = true) {s t : State} {a : Access}
    (h : prepareForStore s a = .ok t) : InstrUpdates i s t := by
  obtain ⟨k, -, ⟨-, rfl⟩ | ⟨-, hz⟩⟩ := prepareForStore_ok h
  · exact .single (.draw s)
  · obtain ⟨hc, rfl⟩ := zeroLine_ok hz
    exact .tail (.tail (.single (.draw s)) (.store _ a _ hi hc)) (.seeStore _ _ _ hi)

theorem prefetch_updates {i : Instr} (hi : canStore i = true) {s t : State} {hint : BitVec 5}
    {a : Access} (h : prefetch s hint a = .ok t) : InstrUpdates i s t := by
  obtain ⟨-, rfl⟩ | ⟨-, -, rfl⟩ | ⟨-, -, u, hu, rfl⟩ := prefetch_ok h
  · exact .refl
  · exact .single (.noData _ _ rfl)
  · exact .tail (prepareForStore_updates hi hu) (.noData _ _ rfl)

/-- A coprocessor 0 register that takes a free value. -/
theorem drawCp0_updates (i : Instr) (s : State) (r : Cp0Reg) (v : Word) :
    InstrUpdates i s (drawn (writeCp0 s r v)) :=
  .tail (.single (.cp0 ..)) (.draw _)

theorem loadTag_updates (i : Instr) (s : State) : InstrUpdates i s (loadTag s) := by
  have htags (v w : Word) :
      InstrUpdates i s (drawn (writeCp0 (drawn (writeCp0 s tagLoReg v)) tagHiReg w)) :=
    (drawCp0_updates ..).trans (drawCp0_updates ..)
  simp only [loadTag]
  split <;> split
  · exact ((htags _ _).trans (drawCp0_updates ..)).trans (drawCp0_updates ..)
  · exact (htags _ _).trans (drawCp0_updates ..)
  · exact (htags _ _).trans (drawCp0_updates ..)
  · exact htags _ _

theorem cacheDone_completes (i : Instr) {s u : State} (a : Access) (h : InstrUpdates i s u) :
    Completes i s (cacheDone u a) :=
  completes_advance (.tail (.tail h (.noData _ _ rfl)) (.taint _))

theorem pauseEpc_updates (i : Instr) (s : State) : InstrUpdates i s (pauseEpc s) := by
  unfold pauseEpc
  split
  · split
    · exact drawCp0_updates ..
    · exact .single (.draw s)
  · exact .refl

/-! ## The updates of each family of instructions -/

theorem writeX_completes (i : Instr) (s : State) (f : RegField) (v : Word) :
    Completes i s (advance (writeX s f v)) := completes_advance (writeX_updates i s f v)

theorem condMove_completes (i : Instr) (s : State) (c : Bool) (f : RegField) (v : Word) :
    Completes i s (condMove s c f v) := by
  unfold condMove
  split
  · exact writeX_completes ..
  · exact completes_advance .refl

/-- EXT and INS complete only where their fields name a part of the word (R200 to R202). -/
theorem guarded_completes {i : Instr} {s t u : State} {p : Prop} [Decidable p] {f : Fault}
    (hu : Completes i s u)
    (h : (if p then .fault f else .next u : Host.Outcome State Fault Refusal) = .next t) :
    Completes i s t := by
  split at h
  · cases h
  · cases h; exact hu

theorem withCop0_completes (i : Instr) {s t : State} {k : State → State}
    (hk : ∀ u, InstrUpdates i u (k u)) (h : withCop0 s k = .next t) : Completes i s t := by
  obtain ⟨-, rfl⟩ := withCop0_next h
  exact completes_advance ((cop0State_updates i s).trans (hk _))

theorem withMT_completes (i : Instr) {s t : State} {k : State → State}
    (hk : ∀ u, InstrUpdates i u (k u)) (h : withMT s k = .next t) : Completes i s t := by
  obtain ⟨-, -, rfl⟩ := withMT_next h
  exact completes_advance ((cop0State_updates i s).trans (hk _))

theorem execMfc0_completes (i : Instr) {s t : State} {ry : RegField} {r32 : BitVec 5}
    {sel : BitVec 3} (h : execMfc0 ry r32 sel s = .next t) : Completes i s t := by
  unfold execMfc0 at h
  split at h
  · exact absurd h (stopOutcome_ne_next _ _)
  · rename_i u hu
    obtain ⟨-, rfl⟩ := requireCop0_ok hu
    split at h
    · cases h; exact completes_advance ((cop0State_updates i s).trans (copyOld_updates ..))
    · split at h
      · cases h; exact completes_advance ((cop0State_updates i s).trans (writeX_updates ..))
      · cases h

theorem execMtc0_completes (i : Instr) {s t : State} {ry : RegField} {r32 : BitVec 5}
    {sel : BitVec 3} (h : execMtc0 ry r32 sel s = .next t) : Completes i s t := by
  unfold execMtc0 at h
  split at h
  · exact absurd h (stopOutcome_ne_next _ _)
  · rename_i u hu
    obtain ⟨-, rfl⟩ := requireCop0_ok hu
    split at h
    · cases h; exact completes_advance ((cop0State_updates i s).trans (mtc0Write_updates ..))
    · cases h

theorem execRdhwr_completes (i : Instr) {s t : State} {ry : RegField} {n : BitVec 5}
    (h : execRdhwr ry n s = .next t) : Completes i s t := by
  unfold execRdhwr at h
  split at h
  · cases h
  · split at h
    · cases h; exact completes_advance ((hwrState_updates i s n).trans (writeX_updates ..))
    · split at h
      · cases h
        exact completes_advance (((cop0State_updates i s).trans (hwrState_updates ..)).trans
          (writeX_updates ..))
      · cases h

theorem gpLoad_completes (i : Instr) {s t : State} {rx : RegField} {imm : BitVec 16} {n : Nat}
    {f : Access → Word} (h : loadResult rx f (gpLoad s imm n) = .next t) : Completes i s t := by
  obtain ⟨a, u, hl, rfl⟩ := loadResult_next h
  obtain ⟨-, hb⟩ := gpLoad_ok hl
  exact completes_advance ((loadBytes_updates i hb).trans (writeX_updates ..))

theorem unalignedLoad_completes (i : Instr) {s t : State} {rx rb : RegField} {imm : BitVec 9}
    {span : Bool → Nat → Nat → List Nat} {f : Access → Word}
    (h : loadResult rx f (unalignedLoad s rb imm span) = .next t) : Completes i s t := by
  obtain ⟨a, u, hl, rfl⟩ := loadResult_next h
  obtain ⟨-, hb⟩ := unalignedLoad_ok hl
  exact completes_advance ((loadBytes_updates i hb).trans (writeX_updates ..))

theorem gpStore_completes {i : Instr} (hi : canStore i = true) {s t : State} {imm : BitVec 16}
    {n : Nat} {v : Word} (h : storeResult (gpStore s imm n v) = .next t) : Completes i s t := by
  obtain ⟨u, hs, rfl⟩ := storeResult_next h
  obtain ⟨a, -, hb⟩ := gpStore_ok hs
  exact completes_advance (storeBytes_updates hi hb)

theorem unalignedStore_completes {i : Instr} (hi : canStore i = true) {s t : State} {rb : RegField}
    {imm : BitVec 9} {cells : Bool → Nat → Nat → Word → List (Nat × Byte)} {y : Word}
    (h : storeResult (unalignedStore s rb imm cells y) = .next t) : Completes i s t := by
  obtain ⟨u, hs, rfl⟩ := storeResult_next h
  obtain ⟨a, -, hb⟩ := unalignedStore_ok hs
  exact completes_advance (storeBytes_updates hi hb)

/-- The linked address is that of an aligned, synchronizable word (R67, R218). -/
theorem execLl_completes {s t : State} {rx rb : RegField} {imm : BitVec 9}
    (h : execLl rx imm rb s = .next t) : Completes (.ll rx imm rb) s t := by
  unfold execLl at h
  split at h
  · exact absurd h (stopOutcome_ne_next _ _)
  · rename_i a ha
    obtain ⟨hopen, hsync⟩ := openLinked_ok ha
    obtain ⟨halign, htrans, -, -⟩ := openAccess_ok hopen
    obtain ⟨hv, hp, -⟩ := translate_ok htrans
    split at h
    · exact absurd h (stopOutcome_ne_next _ _)
    · rename_i hc
      cases h
      have hlink := InstrUpdate.link (i := .ll rx imm rb)
        (record s (.access .load (byteSpan a.pAddr 4) a.cca)) a ⟨rx, imm, rb, rfl⟩ (by rw [hv, halign])
        (by rw [hp, halign]) hsync
      exact completes_advance
        (.tail (.tail (.single (.load s a _ hc)) hlink) (.register ..))

theorem execSc_completes {i : Instr} (hi : canStore i = true) {s t : State} {rx rb : RegField}
    {imm : BitVec 9} (h : execSc rx imm rb s = .next t) : Completes i s t := by
  have hdraw (a : Access) : InstrUpdates i s (scState s a) := by
    unfold scState
    split
    · exact .single (.draw s)
    · exact .refl
  have hcheck (a : Access) (cs : List (Nat × Byte)) :
      checkCells (scState s a) a cs = checkCells s a cs := by
    unfold scState
    split <;> rfl
  unfold execSc at h
  split at h
  · exact absurd h (stopOutcome_ne_next _ _)
  · rename_i a _
    split at h
    · split at h
      · exact absurd h (stopOutcome_ne_next _ _)
      · rename_i hc
        cases h
        exact completes_advance
          (.tail (.tail (.tail (hdraw a) (.store _ a _ hi ((hcheck a _).trans hc))) (.register ..))
            (.unlink _ hi))
    · cases h
      exact completes_advance (.tail (.tail (hdraw a) (.register ..)) (.unlink _ hi))

theorem execCache_completes (i : Instr) {s t : State} {op : BitVec 5} {imm : BitVec 9} {rx : RegField}
    (h : execCache op imm rx s = .next t) : Completes i s t := by
  unfold execCache at h
  split at h
  · exact absurd h (stopOutcome_ne_next _ _)
  · rename_i u hu
    obtain ⟨-, rfl⟩ := requireCop0_ok hu
    split at h
    · cases h
    · obtain ⟨-, ⟨rfl, -⟩ | ⟨rfl, -⟩⟩ := cacheOperation_next h
      · exact cacheDone_completes i _ (cop0State_updates i s)
      · exact cacheDone_completes i _ ((cop0State_updates i s).trans (loadTag_updates ..))

theorem execPref_completes {i : Instr} (hi : canStore i = true) {s t : State} {hint : BitVec 5}
    {imm : BitVec 9} {rx : RegField} (h : execPref hint imm rx s = .next t) : Completes i s t := by
  unfold execPref at h
  split at h
  · cases h
  · split at h
    · cases h; exact completes_advance (.single (.taint s))
    · split at h
      · exact absurd h (stopOutcome_ne_next _ _)
      · rename_i u hu
        cases h; exact completes_advance (.tail (prefetch_updates hi hu) (.taint u))

/-- PAUSE goes on at once, or blocks the stream where `LLbit` is 1 (R192). -/
theorem execPause_completes {s t : State} (h : execPause s = .next t) : Completes .pause s t := by
  unfold execPause at h
  split at h
  · cases h
  · split at h
    · rename_i hll
      cases h; exact ⟨pauseEpc s, pauseEpc_updates .pause s, .inr ⟨rfl, hll, rfl⟩⟩
    · cases h; exact completes_advance .refl

/-- Everything an instruction that completes can have done. -/
theorem exec_completes {i : Instr} {s t : State} (h : exec i s = .next t) : Completes i s t := by
  cases i with
  | addiuGp | andi | lui | ori | xori => cases h; exact writeX_completes ..
  | ext | insZero | ins => exact guarded_completes (writeX_completes ..) h
  | movnZero | movn | movtnZero | movtn | movtzZero | movtz | movzZero | movz =>
    cases h; exact condMove_completes ..
  | di | ei => exact withCop0_completes _ (fun u => changeField_updates _ u _ _) h
  | diRy | eiRy =>
    exact withCop0_completes _
      (fun u => (copyOld_updates _ u _ _).trans (changeField_updates ..)) h
  | dmt | emt => exact withMT_completes _ (fun u => changeField_updates _ u _ _) h
  | dmtRy | emtRy =>
    exact withMT_completes _ (fun u => (copyOld_updates _ u _ _).trans (changeField_updates ..)) h
  | dvpe | evpe => exact withMT_completes _ (fun u => changeEvp_updates _ u _) h
  | dvpeRy | evpeRy =>
    exact withMT_completes _ (fun u => (copyOld_updates _ u _ _).trans (changeEvp_updates ..)) h
  | mfc0 => exact execMfc0_completes _ h
  | mtc0 => exact execMtc0_completes _ h
  | rdhwr => exact execRdhwr_completes _ h
  | ehb => cases h; exact completes_advance (.single (.closeHazards s))
  | pause => exact execPause_completes h
  | sync => cases h; exact completes_advance (.single (.noData _ _ rfl))
  | lb | lbu | lh | lhu | lw => exact gpLoad_completes _ h
  | lwl | lwr => exact unalignedLoad_completes _ h
  | ll => exact execLl_completes h
  | sb | sh | sw => exact gpStore_completes rfl h
  | swl | swr => exact unalignedStore_completes rfl h
  | sc => exact execSc_completes rfl h
  | cache => exact execCache_completes _ h
  | pref => exact execPref_completes rfl h

/-! ## What every update of an instruction keeps -/

/-- What every single update keeps, every sequence of them keeps. -/
theorem updates_keep {R : State → State → Prop} {P : State → Prop} (hP : ∀ u v, R u v → P u → P v)
    {s t : State} (h : Relation.ReflTransGen R s t) (hs : P s) : P t := by
  induction h with
  | refl => exact hs
  | tail _ huv ih => exact hP _ _ huv ih

/-- No update moves the pc: only the end of the instruction does (R27). -/
theorem InstrUpdate.pc_eq {i : Instr} {s t : State} (h : InstrUpdate i s t) : t.pc = s.pc := by
  cases h <;> rfl

theorem InstrUpdates.pc_eq {i : Instr} {s t : State} (h : InstrUpdates i s t) : t.pc = s.pc :=
  updates_keep (P := fun u => u.pc = s.pc) (fun _ _ huv hu => huv.pc_eq.trans hu) h rfl

/-- An update leaves `LLbit` as it is, or a storing form clears it, or it is LL's. -/
theorem InstrUpdate.llBit_cases {i : Instr} {s t : State} (h : InstrUpdate i s t) :
    t.llBit = s.llBit ∨ (t.llBit = false ∧ canStore i = true) ∨ ∃ rx imm rb, i = .ll rx imm rb := by
  cases h with
  | seeStore inBlock coherent hi =>
    by_cases hc : (inBlock && coherent && config5LLB s) = true
    · exact .inr (.inl ⟨by simp [noteStoreIn, hc], hi⟩)
    · exact .inl (by simp [noteStoreIn, hc])
  | unlink hi => exact .inr (.inl ⟨rfl, hi⟩)
  | link a hi => exact .inr (.inr hi)
  | _ => exact .inl rfl

/-- Updates that are not LL's leave `LLbit` as it is, or a storing form clears it. -/
theorem InstrUpdates.llBit_cases {i : Instr} {s t : State} (hll : ¬ ∃ rx imm rb, i = .ll rx imm rb)
    (h : InstrUpdates i s t) : t.llBit = s.llBit ∨ (t.llBit = false ∧ canStore i = true) := by
  refine updates_keep (P := fun u => u.llBit = s.llBit ∨ (u.llBit = false ∧ canStore i = true))
    (fun u v huv hu => ?_) h (.inl rfl)
  obtain hv | hv | hv := huv.llBit_cases
  · rwa [hv]
  · exact .inr hv
  · exact absurd hv hll

/-- Only LL makes the record that there has been an LL. -/
theorem InstrUpdates.llSeen_cases {i : Instr} {s t : State} (h : InstrUpdates i s t) :
    t.llSeen = s.llSeen ∨ (t.llSeen = true ∧ ∃ rx imm rb, i = .ll rx imm rb) := by
  refine updates_keep
    (P := fun u => u.llSeen = s.llSeen ∨ (u.llSeen = true ∧ ∃ rx imm rb, i = .ll rx imm rb))
    (fun u v huv hu => ?_) h (.inl rfl)
  cases huv with
  | link a hi => exact .inr ⟨rfl, hi⟩
  | _ => exact hu

/-- Settles O13: no update moves the pc, so the end of the instruction alone decides it. -/
theorem completionAdvancesPc : Obligations.CompletionAdvancesPc := by
  intro i s t h
  obtain ⟨u, hu, rfl | ⟨hi, hll, rfl⟩⟩ := exec_completes h
  · exact .inl (by rw [advance_pc, hu.pc_eq])
  · exact .inr ⟨hi, hll, hu.pc_eq, rfl⟩

/-- The end of an instruction leaves the link state as its updates left it. -/
theorem Completes.link_eq {i : Instr} {s t : State} (h : Completes i s t) :
    ∃ u, InstrUpdates i s u ∧ t.llBit = u.llBit ∧ t.llSeen = u.llSeen := by
  obtain ⟨u, hu, rfl | ⟨-, -, rfl⟩⟩ := h
  · exact ⟨u, hu, rfl, rfl⟩
  · exact ⟨u, hu, rfl, rfl⟩

/-- LL leaves `LLbit` set. -/
theorem execLl_llBit {s t : State} {rx rb : RegField} {imm : BitVec 9}
    (h : execLl rx imm rb s = .next t) : t.llBit = true := by
  unfold execLl at h
  split at h
  · exact absurd h (stopOutcome_ne_next _ _)
  · split at h
    · exact absurd h (stopOutcome_ne_next _ _)
    · cases h; rfl

/-- Settles O14: LL apart, which sets the bit, every update keeps it or a storing form clears it. -/
theorem onlyLlSetsLlbit : Obligations.OnlyLlSetsLlbit := by
  intro i s t h
  obtain ⟨u, hu, hbit, hseen⟩ := (exec_completes h).link_eq
  refine ⟨fun hs ht => ?_, fun hs ht => ?_, hseen ▸ hu.llSeen_cases⟩
  · by_contra hll
    obtain hsame | ⟨hclear, -⟩ := hu.llBit_cases hll
    · simp [← hbit, hs, ht] at hsame
    · simp [← hbit, ht] at hclear
  · by_cases hll : ∃ rx imm rb, i = .ll rx imm rb
    · obtain ⟨rx, imm, rb, rfl⟩ := hll
      simp [execLl_llBit h] at ht
    · obtain hsame | ⟨-, hstore⟩ := hu.llBit_cases hll
      · simp [← hbit, hs, ht] at hsame
      · exact hstore

/-! ## The single updates a step is made of -/

/-- One update of the state in a step: one of the instruction, which is fetched where its four bytes lie
below the top of the address space (R28), or one of what surrounds it: other agents (R287), the
bookkeeping of R256, the end of the instruction, the poll of a blocked stream (R192). -/
inductive StepUpdate : State → State → Prop where
  | instr (i : Instr) (s t : State) (room : s.pc ≠ 0xFFFFFFFE#32) (h : InstrUpdate i s t) :
      StepUpdate s t
  | dequeue (s : State) (env : List (List EnvEvent)) : StepUpdate s { s with env := env }
  | agent (s t : State) (e : EnvEvent) (h : applyEvent s e = .ok t) : StepUpdate s t
  | noteFetch (s : State) : StepUpdate s (noteFetch s)
  | advance (s : State) : StepUpdate s (advance s)
  | wait (s : State) (b : Bool) : StepUpdate s { s with waiting := b }
  | draw (s : State) : StepUpdate s (drawn s)

/-- Any number of updates of one step. -/
abbrev StepUpdates : State → State → Prop := Relation.ReflTransGen StepUpdate

theorem applyEvents_updates {s t : State} {es : List EnvEvent} (h : applyEvents s es = .ok t) :
    StepUpdates s t := by
  induction es generalizing s with
  | nil => cases h; exact .refl
  | cons e es ih =>
    unfold applyEvents at h
    split at h
    · cases h
    · rename_i u hu
      exact .head (.agent s u e hu) (ih h)

theorem deliver_updates {s t : State} (h : deliver s = .ok t) : StepUpdates s t := by
  unfold deliver at h
  split at h
  · cases h; exact .refl
  · exact .head (.dequeue s _) (applyEvents_updates h)

theorem pollPause_updates (s : State) : StepUpdates s (pollPause s) := by
  have hdraw : StepUpdates s (if resumeIsDrawn s then drawn s else s) := by
    split
    · exact .single (.draw s)
    · exact .refl
  simp only [pollPause]
  split
  · exact .tail (.tail hdraw (.wait _ _)) (.advance _)
  · exact hdraw

theorem InstrUpdates.stepUpdates {i : Instr} {s t : State} (h : InstrUpdates i s t)
    (room : s.pc ≠ 0xFFFFFFFE#32) : StepUpdates s t := by
  induction h with
  | refl => exact .refl
  | tail hsu huv ih =>
    have hpc := InstrUpdates.pc_eq hsu
    exact .tail ih (.instr i _ _ (by rwa [hpc]) huv)

theorem Completes.stepUpdates {i : Instr} {s t : State} (h : Completes i s t)
    (room : s.pc ≠ 0xFFFFFFFE#32) : StepUpdates s t := by
  obtain ⟨u, hu, rfl | ⟨-, -, rfl⟩⟩ := h
  · exact .tail (hu.stepUpdates room) (.advance u)
  · exact .tail (hu.stepUpdates room) (.wait u true)

/-- Bytes that decode begin with EXTEND (R100). -/
theorem startsExtended_of_decodeBytes {be : Bool} {bs : List Byte} {i : Instr}
    (h : decodeBytes be bs = .ok i) : startsExtended be bs = true := by
  unfold decodeBytes at h
  split at h
  · simp only at h
    split at h
    · cases h
    · rename_i hext
      simpa [startsExtended] using hext
  · cases h

theorem decodeFetched_ok {s : State} {bs : List Byte} {i : Instr} :
    decodeFetched s bs = .ok i ↔ decodeBytes s.cfg.bigEndian bs = .ok i := by
  unfold decodeFetched
  split
  · rename_i he; simp [he, refuse]
  · rename_i hj; simp [hj]

/-- No instruction is fetched across the top of the address space (R28): a halfword that does not begin
with EXTEND is none. -/
theorem fetch_room {s : State} {i : Instr} (h : fetch s = .ok i) : s.pc ≠ 0xFFFFFFFE#32 := by
  unfold fetch at h
  split at h
  · cases h
  · split at h
    · cases h
    · split at h
      · rename_i hnot
        simp [startsExtended_of_decodeBytes (decodeFetched_ok.mp h)] at hnot
      · split at h
        · cases h
        · assumption

@[simp] theorem noteFetch_pc (s : State) : (noteFetch s).pc = s.pc := by
  unfold noteFetch
  split <;> rfl

/-- Everything a step that answers a next state can have done. -/
theorem step_updates {s t : State} (h : step s = .next t) : StepUpdates s t := by
  unfold step at h
  split at h
  · exact absurd h (stopOutcome_ne_next _ _)
  · rename_i u hu
    refine (deliver_updates hu).trans ?_
    split at h
    · cases h; exact pollPause_updates u
    · split at h
      · exact absurd h (stopOutcome_ne_next _ _)
      · rename_i i hi
        split at h
        · exact .head (.noteFetch u)
            ((exec_completes h).stepUpdates (by rw [noteFetch_pc]; exact fetch_room hi))
        · cases h

/-- What every single update of a step keeps, the step keeps. -/
theorem step_keeps {P : State → Prop} (hP : ∀ u v, StepUpdate u v → P u → P v) {s t : State}
    (h : step s = .next t) (hs : P s) : P t :=
  updates_keep hP (step_updates h) hs

/-! ## The state no step reaches -/

/-- The parameters, the privilege, the delay-slot flag and the registers that no register field names
are those of `s`. -/
structure SameUnreachable (s t : State) : Prop where
  cfg : t.cfg = s.cfg
  privileged : t.privileged = s.privileged
  inDelaySlot : t.inDelaySlot = s.inDelaySlot
  registers : ∀ r : RegNum, (∀ f, xLat s.cfg f ≠ r) → readGpr t r = readGpr s r

theorem SameUnreachable.instrUpdate {i : Instr} {s u v : State} (h : SameUnreachable s u)
    (huv : InstrUpdate i u v) : SameUnreachable s v := by
  cases huv with
  | register f w =>
    refine { h with registers := fun r hr => ?_ }
    rw [readGpr_writeX_other u f w (by rw [h.cfg]; exact (hr f).symm), h.registers r hr]
  | _ => exact ⟨h.cfg, h.privileged, h.inDelaySlot, h.registers⟩

theorem SameUnreachable.stepUpdate {s u v : State} (h : SameUnreachable s u)
    (huv : StepUpdate u v) : SameUnreachable s v := by
  cases huv with
  | instr i _ _ _ hi => exact h.instrUpdate hi
  | agent _ _ e he =>
    cases e with
    | store p bytes =>
      obtain ⟨-, -, rfl⟩ := eventStore_ok he
      exact ⟨h.cfg, h.privileged, h.inDelaySlot, h.registers⟩
    | cacheOp => cases he; exact ⟨h.cfg, h.privileged, h.inDelaySlot, h.registers⟩
  | noteFetch =>
    unfold noteFetch
    split
    · exact ⟨h.cfg, h.privileged, h.inDelaySlot, h.registers⟩
    · exact h
  | _ => exact ⟨h.cfg, h.privileged, h.inDelaySlot, h.registers⟩

theorem step_sameUnreachable {s t : State} (h : step s = .next t) : SameUnreachable s t :=
  step_keeps (P := SameUnreachable s) (fun _ _ huv hu => hu.stepUpdate huv) h
    ⟨rfl, rfl, rfl, fun _ _ => rfl⟩

/-- Settles O10: `SameUnreachable` is kept by every update; the map of R22 names neither gp nor T. -/
theorem stepKeepsUnreachableState : Obligations.StepKeepsUnreachableState := by
  intro s t h
  obtain ⟨hcfg, hpriv, hslot, hregs⟩ := step_sameUnreachable h
  exact ⟨hcfg, hpriv, hslot, rfl,
    fun hx => ⟨hregs gpReg (xLat_ne_gp hx), hregs tReg (xLat_ne_t hx)⟩, hregs⟩

/-! ## The invariant -/

/-- Bytes with no conflict of access types agree with the whole history (R71). -/
theorem sameType_of_noConflict {s : State} {bs : List Nat} {cca : Cca} {e : MemEvent}
    (he : dataAccess e = some (bs, cca)) (h : typeConflict s bs cca = false) :
    ∀ f ∈ s.history, sameType e f := by
  intro f hf bs' c ds d q he' hf' hq hq'
  obtain ⟨rfl, rfl⟩ : bs = bs' ∧ cca = c := by simpa [he] using he'
  simp only [typeConflict, List.any_eq_false] at h
  have hnot := h f hf
  by_contra hne
  cases f with
  | barrier k => cases hf'
  | access k xs x =>
    cases k with
    | load | store =>
      cases hf'
      simp only [Bool.and_eq_true, decide_eq_true_eq, List.any_eq_true, not_and, not_exists] at hnot
      exact hnot (Ne.symm hne) q hq' (by simpa using hq)
    | cacheop | pref | fetch => cases hf'

/-- An event that is no access of data agrees with every event. -/
theorem sameType_of_noData {e f : MemEvent} (he : dataAccess e = none) : sameType e f := by
  intro bs c ds d q he'
  simp [he] at he'

theorem sparesText_of_noData {cfg : Config} {e : MemEvent} (he : dataAccess e = none) :
    sparesText cfg e := by
  cases e with
  | barrier k => trivial
  | access k bs c =>
    cases k with
    | load | store => cases he
    | cacheop | pref | fetch => trivial

/-- An event enters the history where it agrees with the earlier ones and spares the text. -/
theorem Inv.record {s : State} (h : Inv s) {e : MemEvent} (htype : ∀ f ∈ s.history, sameType e f)
    (htext : sparesText s.cfg e) : Inv (record s e) :=
  { h with
    oneType := List.pairwise_cons.mpr ⟨htype, h.oneType⟩
    text := fun f hf => by
      rcases List.mem_cons.mp hf with rfl | hf
      · exact htext
      · exact h.text f hf }

theorem Inv.writeBytes {s : State} (h : Inv s) (cs : List (Nat × Byte)) :
    Inv { s with mem := writeBytes s.mem cs } :=
  { h with memory := writeBytes_wf cs h.memory }

/-- The link may always be dropped. -/
theorem Inv.dropLink {s : State} (h : Inv s) {b : Bool} (hb : b = true → s.llBit = true) :
    Inv { s with llBit := b } :=
  { h with
    link := fun ht => h.link (hb ht)
    seen := fun ht => h.seen (hb ht)
    window := fun ht => h.window (hb ht) }

/-- The cell of register 0 is never written (R21). -/
theorem writeGpr_zeroCell (s : State) (n : RegNum) (v : Word) :
    (writeGpr s n v).gpr[0] = s.gpr[0] := by
  by_cases hn : n = 0
  · simp [writeGpr, hn]
  · have hne : n.val ≠ 0 := fun h0 => hn (Fin.ext h0)
    simp [writeGpr, hn, hne]

theorem Inv.writeX {s : State} (h : Inv s) (f : RegField) (v : Word) : Inv (writeX s f v) :=
  { h with zero := (writeGpr_zeroCell s _ v).trans h.zero }

/-- `HazardPending` stays a set (R48). -/
theorem Inv.addHazard {s : State} (h : Inv s) (f : HazardField) (b : Bool) :
    Inv (addHazard s f b) := by
  refine { h with hazardSet := ?_ }
  simp only [Machine.addHazard]
  split
  · exact h.hazardSet
  · rename_i hn
    exact List.nodup_cons.mpr ⟨by simpa using hn, h.hazardSet⟩

theorem Inv.load {s : State} (h : Inv s) {a : Access} {bs : List Nat}
    (hc : checkBytes s a bs = .ok ()) : Inv (Machine.record s (.access .load bs a.cca)) :=
  h.record (sameType_of_noConflict rfl (checkBytes_ok.mp hc).2) trivial

/-- A checked store keeps the invariant: no second access type (R71), no program text (R78). -/
theorem Inv.store {s : State} (h : Inv s) {a : Access} {cs : List (Nat × Byte)}
    (hc : checkCells s a cs = .ok ()) : Inv (putCells s a cs) := by
  obtain ⟨hbytes, htext⟩ := checkCells_ok.mp hc
  refine (h.writeBytes cs).record (sameType_of_noConflict rfl (checkBytes_ok.mp hbytes).2)
    fun q hq => ?_
  obtain ⟨c, hcs, rfl⟩ := List.mem_map.mp hq
  exact htext c hcs

/-- LL opens a link whose window is the LL itself (R256): it does not wrap below the top of the address
space. -/
theorem Inv.setLink {s : State} (h : Inv s) (room : s.pc ≠ 0xFFFFFFFE#32) {a : Access}
    (hv : a.vAddr.toNat % 4 = 0) (hp : a.pAddr % 4 = 0) (hs : a.cca.synchronizable = true) :
    Inv (setLink s a) :=
  { h with
    link := fun _ => ⟨hv, hp, hs⟩
    seen := fun _ => rfl
    window := fun _ => by
      have heven := h.pcEven
      simp only [setLink_llLo, setLink_llHi]
      bv_omega }

theorem Inv.instrUpdate {i : Instr} {s t : State} (h : Inv s) (room : s.pc ≠ 0xFFFFFFFE#32)
    (hst : InstrUpdate i s t) : Inv t := by
  cases hst with
  | register f v => exact h.writeX f v
  | openHazard f b => exact h.addHazard f b
  | closeHazards => exact { h with hazardSet := List.nodup_nil }
  | noData e he => exact h.record (fun _ _ => sameType_of_noData he) (sparesText_of_noData he)
  | load a bs hc => exact h.load hc
  | store a cs _ hc => exact h.store hc
  | seeStore b c =>
    exact { h.dropLink (b := (noteStoreIn s b c).llBit) (by simp +contextual [noteStoreIn]) with }
  | unlink => exact h.dropLink (by simp)
  | link a _ hv hp hs => exact h.setLink room hv hp hs
  | cp0 | draw | seeLoad | taint => exact { h with }

/-- Another agent's event keeps the invariant: its store may only drop the link (R76, R287). -/
theorem Inv.agent {s t : State} (h : Inv s) {e : EnvEvent} (he : applyEvent s e = .ok t) : Inv t := by
  cases e with
  | store p bytes =>
    obtain ⟨-, -, rfl⟩ := eventStore_ok he
    exact (h.writeBytes _).dropLink (by simp +contextual)
  | cacheOp => cases he; exact { h with }

theorem lower_toNat (a b : Word) : (lower a b).toNat = min a.toNat b.toNat := by
  unfold lower
  split <;> omega

theorem higher_toNat (a b : Word) : (higher a b).toNat = max a.toNat b.toNat := by
  unfold higher
  split <;> omega

/-- The window only grows at a fetch (R256). -/
theorem Inv.noteFetch {s : State} (h : Inv s) : Inv (noteFetch s) := by
  unfold Machine.noteFetch
  split
  · refine { h with window := fun hll => ?_ }
    have hw := h.window hll
    rw [lower_toNat, higher_toNat]
    omega
  · exact h

/-- The pc stays even (R28). -/
theorem Inv.advance {s : State} (h : Inv s) : Inv (advance s) := by
  refine { h with pcEven := ?_ }
  have heven := h.pcEven
  rw [advance_pc]
  bv_omega

theorem Inv.stepUpdate {s t : State} (h : Inv s) (hst : StepUpdate s t) : Inv t := by
  cases hst with
  | instr i _ _ room hi => exact h.instrUpdate room hi
  | agent _ _ e he => exact h.agent he
  | noteFetch => exact h.noteFetch
  | advance => exact h.advance
  | dequeue | wait | draw => exact { h with }

/-- Settles O6: every single update of a step keeps the invariant. -/
theorem stepKeepsInvariant : Obligations.StepKeepsInvariant :=
  fun _ _ hs h => step_keeps (P := Inv) (fun _ _ huv hu => hu.stepUpdate huv) h hs

/-! ## Reset and the fetch -/

/-- Settles O7: both are fields of the reset state. -/
theorem resetHasNoHazard : Obligations.ResetHasNoHazard := ⟨rfl, rfl⟩

/-- A halfword of populated program text is fetched (R28, R78). -/
theorem fetchHalf_eq {s : State} {v : Word} {a : Access} (ha : translate s .fetch v = .ok a)
    (hq : ∀ q ∈ [a.pAddr, a.pAddr + 1], populated s.cfg q = true ∧ inText s.cfg q = true) :
    fetchHalf s v = .ok ([a.pAddr, a.pAddr + 1].map (readByte s.mem)) := by
  have hspan : byteSpan a.pAddr 2 = [a.pAddr, a.pAddr + 1] := by simp [byteSpan, List.range_succ]
  have hpop : [a.pAddr, a.pAddr + 1].all (populated s.cfg) = true :=
    List.all_eq_true.mpr fun q h => (hq q h).1
  have htext : [a.pAddr, a.pAddr + 1].all (inText s.cfg) = true :=
    List.all_eq_true.mpr fun q h => (hq q h).2
  simp only [fetchHalf, ha, hspan, hpop, htext, Bool.not_true, Bool.false_eq_true, if_false]

/-- Four bytes of populated program text that decode are fetched as that instruction (R80, R100). -/
theorem fetch_eq {s : State} {i : Instr} {a b : Access} (heven : s.pc.toNat % 2 = 0)
    (hroom : s.pc ≠ 0xFFFFFFFE#32) (ha : translate s .fetch s.pc = .ok a)
    (hb : translate s .fetch (s.pc + 2#32) = .ok b)
    (hq : ∀ q ∈ [a.pAddr, a.pAddr + 1, b.pAddr, b.pAddr + 1],
      populated s.cfg q = true ∧ inText s.cfg q = true)
    (hi : decodeBytes s.cfg.bigEndian
      ([a.pAddr, a.pAddr + 1, b.pAddr, b.pAddr + 1].map (readByte s.mem)) = .ok i) :
    fetch s = .ok i := by
  have hfirst := fetchHalf_eq ha fun q h => hq q (List.mem_append_left [b.pAddr, b.pAddr + 1] h)
  have hsecond := fetchHalf_eq hb fun q h => hq q (List.mem_append_right [a.pAddr, a.pAddr + 1] h)
  have hall := startsExtended_of_decodeBytes hi
  have hext : startsExtended s.cfg.bigEndian ([a.pAddr, a.pAddr + 1].map (readByte s.mem)) = true :=
    hall
  have hodd : ¬ s.pc.toNat % 2 = 1 := by omega
  simp only [fetch, hodd, hroom, hfirst, hsecond, hext, if_false, Bool.not_true,
    Bool.false_eq_true]
  exact decodeFetched_ok.mpr hi

/-- What a step runs once the fetch has answered. -/
theorem step_eq_exec {s u : State} {i : Instr} (hu : deliver s = .ok u) (hw : u.waiting = false)
    (hm : u.cfg.hasMips16e2 = true) (hi : fetch u = .ok i) : step s = exec i (noteFetch u) := by
  simp only [step, hu, hw, hi, hm, Bool.false_eq_true, if_false, if_true]

/-- Settles O8: the fetch answers the decoded instruction, and `noteFetch` is the widening of R256. -/
theorem stepRunsDecodedInstruction : Obligations.StepRunsDecodedInstruction := by
  refine ⟨fun s hs => by simp only [deliver, hs], ?_⟩
  intro s u i a b hu hw hm heven hroom ha hb hq hi
  exact step_eq_exec hu hw hm (fetch_eq heven hroom ha hb hq hi)

/-! ## LL -/

/-- An LL whose address passes every test opens its access (R218). -/
theorem openLinked_eq {s : State} {v : Word} {a : Access} (halign : v.toNat % 4 = 0)
    (htrans : translate s .load v = .ok a) (hwatch : watchAt s.cfg .load v = false)
    (hsync : a.cca.synchronizable = true) : openLinked s v = .ok a := by
  have hopen : openAccess s .load 4 true false v = .ok a :=
    openAccess_eq halign htrans (fun _ => hwatch) (by simp)
  simp only [openLinked, hopen, hsync, if_true]

theorem byteSpan_four (p : Nat) : byteSpan p 4 = [p, p + 1, p + 2, p + 3] := by
  simp [byteSpan, List.range_succ]

/-- The destination of an instruction that writes it last holds the value (R21). -/
theorem holds_advance_writeX (s : State) (f : RegField) (v : Word) :
    Holds (advance (writeX s f v)) (xLat s.cfg f) v := readGpr_writeX_same s f v

/-- Where LL completes, and the state it leaves (R218). -/
theorem execLl_eq {s : State} (rx : RegField) {imm : BitVec 9} {rb : RegField} {a : Access}
    (hopen : openLinked s (baseAddr s rb imm) = .ok a)
    (hbytes : checkBytes s a [a.pAddr, a.pAddr + 1, a.pAddr + 2, a.pAddr + 3] = .ok ()) :
    execLl rx imm rb s = .next (advance (writeX (setLink (record s
      (.access .load [a.pAddr, a.pAddr + 1, a.pAddr + 2, a.pAddr + 3] a.cca)) a) rx
      (memRead4 s a.pAddr))) := by
  simp only [execLl, hopen, byteSpan_four, hbytes]

/-- Settles O26, field by field from the state LL leaves. -/
theorem llResult : Obligations.LlResult := by
  intro s rx imm rb a v p m halign hread hwatch hsync
  obtain ⟨htrans, hpresent, htype⟩ := hread
  obtain ⟨hv, -⟩ := translate_ok htrans
  have hexec := execLl_eq rx (openLinked_eq halign htrans hwatch hsync)
    (checkBytes_ok.mpr ⟨hpresent, htype⟩)
  refine ⟨_, hexec, rfl, holds_advance_writeX ..,
    fun r hr => readGpr_writeX_other (setLink (record s _) a) rx _ hr,
    fun q => rfl, rfl, rfl, rfl, hv, rfl, rfl, rfl, rfl, rfl⟩

/-! ## The test of coprocessor 0 access -/

/-- Access that is enabled for certain is granted without a draw (R280). -/
theorem cop0Enabled_of_sure {s : State} (h : cop0Sure s) : cop0Enabled s = true := by
  rcases h with hp | ⟨hcu, hopen⟩
  · simp [cop0Enabled, hp]
  · simp [cop0Enabled, seenBit, hcu, hopen]

theorem cop0State_of_sure {s : State} (h : cop0Sure s) : cop0State s = s := by
  rcases h with hp | ⟨-, hopen⟩
  · simp [cop0State, hp]
  · simp [cop0State, seenState, hopen]

theorem requireCop0_of_sure {s : State} (h : cop0Sure s) : requireCop0 s = .ok s := by
  simp [requireCop0, cop0Enabled_of_sure h, cop0State_of_sure h]

theorem cop0Enabled_of_denied {s : State} (h : cop0Denied s) : cop0Enabled s = false := by
  obtain ⟨hp, hcu, hopen⟩ := h
  simp [cop0Enabled, seenBit, hp, hcu, hopen]

/-! ## MTC0 -/

theorem mem_addHazard {s : State} {f : HazardField} {b : Bool} {h : HazardField × Bool} :
    h ∈ (addHazard s f b).hazards ↔ h ∈ s.hazards ∨ h = (f, b) := by
  simp only [addHazard, List.contains_iff_mem]
  split
  · rename_i hmem
    exact ⟨.inl, fun h' => h'.elim id fun he => he ▸ hmem⟩
  · rw [List.mem_cons, or_comm]

/-- The word MTC0 leaves in a register of mask `m`: the writable bits of `data`, the others of `old`. -/
def maskedWord (m old data : Word) : Word := (old &&& ~~~m) ||| (data &&& m)

theorem getLsbD_maskedWord (m old data : Word) {k : Nat} (hk : k < 32) :
    (maskedWord m old data).getLsbD k = if m.getLsbD k then data.getLsbD k else old.getLsbD k := by
  simp only [maskedWord, BitVec.getLsbD_or, BitVec.getLsbD_and, BitVec.getLsbD_not, hk, decide_true,
    Bool.true_and]
  cases m.getLsbD k <;> simp

theorem maskedWord_zero (old data : Word) : maskedWord 0#32 old data = old :=
  BitVec.eq_of_getLsbD_eq fun k hk => by simp [getLsbD_maskedWord _ _ _ hk]

/-- LLAddr and BadVAddr are read-only whatever the parameter says (R177). -/
theorem writeMask_readOnly (cfg : Config) {r : Cp0Reg} (h : r = llAddrReg ∨ r = badVAddrReg) :
    writeMask cfg r = 0#32 := by
  rcases h with rfl | rfl <;> rfl

/-- MTC0 changes coprocessor 0 and the hazards, nothing else (R175). -/
theorem mtc0Write_eq (s : State) (r : Cp0Reg) (d : Word) :
    mtc0Write s r d =
      { s with cp0 := (mtc0Write s r d).cp0, hazards := (mtc0Write s r d).hazards } := by
  simp only [mtc0Write]
  split <;> rfl

@[simp] theorem mtc0Write_gpr (s : State) (r : Cp0Reg) (d : Word) : (mtc0Write s r d).gpr = s.gpr := by
  rw [mtc0Write_eq]

@[simp] theorem mtc0Write_pc (s : State) (r : Cp0Reg) (d : Word) : (mtc0Write s r d).pc = s.pc := by
  rw [mtc0Write_eq]

@[simp] theorem mtc0Write_mem (s : State) (r : Cp0Reg) (d : Word) : (mtc0Write s r d).mem = s.mem := by
  rw [mtc0Write_eq]

@[simp] theorem mtc0Write_cfg (s : State) (r : Cp0Reg) (d : Word) : (mtc0Write s r d).cfg = s.cfg := by
  rw [mtc0Write_eq]

@[simp] theorem mtc0Write_privileged (s : State) (r : Cp0Reg) (d : Word) :
    (mtc0Write s r d).privileged = s.privileged := by
  rw [mtc0Write_eq]

/-- The coprocessor 0 cells after MTC0 are those after a write of the masked word. -/
theorem mtc0Write_cp0 (s : State) (r : Cp0Reg) (d : Word) :
    (mtc0Write s r d).cp0 =
      (writeCp0 s r (maskedWord (writeMask s.cfg r) (readCp0 s r) d)).cp0 := by
  simp only [mtc0Write, maskedWord]
  split <;> rfl

theorem readCp0_mtc0Write (s : State) (q r : Cp0Reg) (d : Word) :
    readCp0 (mtc0Write s r d) q =
      if q = r then maskedWord (writeMask s.cfg r) (readCp0 s r) d else readCp0 s q := by
  rw [← readCp0_writeCp0]
  exact congrArg (fun cells : Vector Word 256 => cells[cp0Index q]) (mtc0Write_cp0 s r d)

/-- The one hazard MTC0 opens is that of a changed `Status.CU0`, with its old value (R177). -/
theorem mem_mtc0Write_hazards {s : State} {r : Cp0Reg} {d : Word} {h : HazardField × Bool} :
    h ∈ (mtc0Write s r d).hazards ↔ h ∈ s.hazards ∨
      (h = (.statusCU0, fieldBit s .statusCU0) ∧
        fieldBit (mtc0Write s r d) .statusCU0 ≠ fieldBit s .statusCU0) := by
  have hbit : fieldBit (mtc0Write s r d) .statusCU0 =
      fieldBit (writeCp0 s r (maskedWord (writeMask s.cfg r) (readCp0 s r) d)) .statusCU0 := by
    simp only [fieldBit, readCp0, mtc0Write_cp0]
  rw [hbit]
  simp only [mtc0Write, maskedWord]
  split
  · rename_i hne
    simp [mem_addHazard, hne]
  · rename_i heq
    simp [heq]

/-- An address whose row takes its access type from a source translates with that of the state. -/
theorem translate_map {s : State} {k : AccessKind} {v : Word} {frame : Nat} {source : CcaSource}
    (h : (transEntry s.cfg s.privileged k v).result = .map frame source) :
    ∃ a, translate s k v = .ok a ∧ a.cca = ccaFrom s source := by
  simp only [translate, h]
  exact ⟨_, rfl, rfl⟩

/-- The access type of a source that Config programs is that of the code stored in its field (R41). -/
theorem ccaFrom_programmed (s : State) {source : CcaSource} {low : Nat}
    (h : (source, low) ∈ [(CcaSource.k0, 0), (.ku, 25), (.k23, 28)]) :
    ccaFrom s source = programmedCca s low := by
  simp only [List.mem_cons, Prod.mk.injEq, List.not_mem_nil, or_false] at h
  obtain ⟨rfl, rfl⟩ | ⟨rfl, rfl⟩ | ⟨rfl, rfl⟩ := h <;> rfl

/-- MTC0 of a register that exists, with access that is enabled for certain. -/
theorem execMtc0_eq {s : State} (ry : RegField) {r32 : BitVec 5} {sel : BitVec 3} (h : cop0Sure s)
    (hr : cp0Implemented s.cfg ⟨r32, sel⟩ = true) :
    execMtc0 ry r32 sel s = .next (advance (mtc0Write s ⟨r32, sel⟩ (readX s ry))) := by
  simp only [execMtc0, requireCop0_of_sure h, hr, if_true]

/-- MTC0 of a register that does not exist is UNDEFINED (R175). -/
theorem execMtc0_absent {s : State} (ry : RegField) {r32 : BitVec 5} {sel : BitVec 3}
    (h : cop0Sure s) (hr : ¬ cp0Implemented s.cfg ⟨r32, sel⟩ = true) :
    execMtc0 ry r32 sel s = .fault (.undefined .mtc0NoRegister) := by
  simp only [execMtc0, requireCop0_of_sure h, hr, Bool.false_eq_true, if_false]

/-- Settles O46: the test of access changes nothing, then the laws of `mtc0Write`. -/
theorem mtc0Results : Obligations.Mtc0Results := by
  intro s ry r32 sel hsure r old
  split
  · rename_i hr
    have hreg (q : Cp0Reg) := readCp0_mtc0Write s q r (readX s ry)
    refine ⟨_, execMtc0_eq ry hsure hr, ?pc, fun g => ?registers, fun q => ?memory, fun k hk => ?bits,
      fun hro => ?readOnly, fun q hq => ?others, fun h => ?hazards, ?accessTypes, ?rest⟩
    case pc => rw [advance_pc, mtc0Write_pc]
    case registers => rw [readGpr_advance, readGpr, mtc0Write_gpr, readGpr]
    case memory => rw [advance_mem, mtc0Write_mem]
    case bits => rw [readCp0_advance, hreg, if_pos rfl, getLsbD_maskedWord _ _ _ hk]; rfl
    case readOnly =>
      rw [readCp0_advance, hreg, if_pos rfl, writeMask_readOnly s.cfg hro, maskedWord_zero]
    case others => rw [readCp0_advance, hreg, if_neg hq]
    case hazards => exact mem_mtc0Write_hazards
    case accessTypes =>
      intro source low hsource kind v frame hrow
      obtain ⟨a, ha, hcca⟩ := translate_map (s := advance (mtc0Write s r (readX s ry)))
        (by rw [advance_cfg, advance_privileged, mtc0Write_cfg, mtc0Write_privileged]; exact hrow)
      refine ⟨a, ha, ?_⟩
      rw [hcca, ccaFrom_programmed _ hsource, programmedCca, advance_cfg, mtc0Write_cfg]
    case rest =>
      conv_lhs => rw [mtc0Write_eq]
      rw [advance_pc, mtc0Write_pc]
      rfl
  · rename_i hr
    exact execMtc0_absent ry hsure hr

/-! ## RDHWR -/

/-- The two tests of RDHWR, each granted without a change of the state (R178). -/
theorem execRdhwr_eq {s : State} (ry : RegField) {n : BitVec 5} (hn : hwrImplemented s.cfg n = true)
    (h : cop0Sure s ∨ hwrEnabled s n = true) :
    execRdhwr ry n s = .next (advance (writeX (hwrState s n) ry (hwrValue s n))) := by
  by_cases hen : hwrEnabled s n = true
  · simp [execRdhwr, hn, hen]
  · have hsure := h.resolve_right hen
    simp [execRdhwr, hn, hen, cop0Enabled_of_sure hsure, cop0State_of_sure hsure]

theorem execRdhwr_absent {s : State} (ry : RegField) {n : BitVec 5}
    (hn : hwrImplemented s.cfg n = false) :
    execRdhwr ry n s = .fault (.trap .reservedInstruction) := by
  simp [execRdhwr, hn]

theorem execRdhwr_denied {s : State} (ry : RegField) {n : BitVec 5} (h : cop0Denied s)
    (hen : hwrEnabled s n = false) : execRdhwr ry n s = .fault (.trap .reservedInstruction) := by
  simp [execRdhwr, hen, cop0Enabled_of_denied h]

/-- Settles O48: RDHWR writes `hwrValue`, whose cases are those of R44, after at most a draw. -/
theorem rdhwrResults : Obligations.RdhwrResults := by
  intro s ry n present enabled
  have hpresent : present = hwrImplemented s.cfg n := rfl
  refine ⟨fun hp h => ?_, fun hp => execRdhwr_absent ry (hpresent ▸ hp),
    fun hd hen => execRdhwr_denied ry hd hen⟩
  refine ⟨_, hwrValue s n, execRdhwr_eq ry (hpresent ▸ hp) h, ?_⟩
  have hvalue : (n = 0#5 → hwrValue s n = ((readCp0 s eBaseReg).extractLsb' 0 10).zeroExtend 32) ∧
      (n = 1#5 → hwrValue s n = s.cfg.synciStep) ∧
      (n = 3#5 → hwrValue s n = s.cfg.countResolution) ∧
      (n = 5#5 → hwrValue s n = if (readCp0 s config5Reg).getLsbD 13 then 1#32 else 0#32) ∧
      (n = 29#5 → hwrValue s n = readCp0 s userLocalReg) := by
    refine ⟨?_, ?_, ?_, ?_, ?_⟩ <;> rintro rfl <;> rfl
  rcases hwrState_eq s n with hs | hs <;> rw [hs]
  · exact ⟨rfl, ⟨holds_advance_writeX .., fun r hr => readGpr_writeX_other s ry _ hr⟩, fun _ => rfl,
      rfl, hvalue⟩
  · exact ⟨rfl, ⟨holds_advance_writeX .., fun r hr => readGpr_writeX_other (drawn s) ry _ hr⟩,
      fun _ => rfl, rfl, hvalue⟩

end Sys2Proof.Machine
end

section
/-! The family Encoding (30_encoding.md): what the decoder reads in a word of each format, and the
agreement of the two directions over words and bytes. -/

namespace Sys2Proof

/-! ## The fields of a word of each format -/

/-- A field is its two parts, the higher first. -/
theorem field_split (w : Word) (lo : Nat) {m n : Nat} :
    field w lo (m + n) = field w (lo + n) m ++ field w lo n :=
  (BitVec.extractLsb'_append_extractLsb'_eq_extractLsb' rfl).symm

/-- The low bits of a bit vector in two parts, the higher first. -/
theorem extractLsb'_parts {w : Nat} (m n : Nat) (x : BitVec w) :
    x.extractLsb' n m ++ x.extractLsb' 0 n = x.extractLsb' 0 (m + n) :=
  BitVec.extractLsb'_append_extractLsb'_eq_extractLsb' (Nat.zero_add n).symm

/-- The three parts of a 16-bit immediate (R108). -/
theorem imm16_parts (imm : BitVec 16) :
    imm.extractLsb' 11 5 ++ imm.extractLsb' 5 6 ++ imm.extractLsb' 0 5 = imm :=
  calc imm.extractLsb' 11 5 ++ imm.extractLsb' 5 6 ++ imm.extractLsb' 0 5
    _ = imm.extractLsb' 5 11 ++ imm.extractLsb' 0 5 :=
      congrArg (· ++ imm.extractLsb' 0 5) (BitVec.extractLsb'_append_extractLsb'_eq_extractLsb' rfl)
    _ = imm := (extractLsb'_parts 11 5 imm).trans BitVec.extractLsb'_eq_self

/-- The two parts of a 9-bit immediate (R109). -/
theorem imm9_parts (imm : BitVec 9) : imm.extractLsb' 5 4 ++ imm.extractLsb' 0 5 = imm :=
  (extractLsb'_parts 4 5 imm).trans BitVec.extractLsb'_eq_self

/-- Format EXT-I16 (R101). -/
theorem fields_encodeI16 (major : BitVec 5) (sel rx : BitVec 3) (imm : BitVec 16) :
    field (encodeI16 major sel rx imm) 27 5 = 0b11110#5 ∧
    field (encodeI16 major sel rx imm) 11 5 = major ∧
    field (encodeI16 major sel rx imm) 5 3 = sel ∧
    rxOf (encodeI16 major sel rx imm) = rx ∧ imm16Of (encodeI16 major sel rx imm) = imm := by
  refine ⟨?_, ?_, ?_, ?_, ?imm⟩
  case imm =>
    simp (disch := omega) only [imm16Of, field, encodeI16, BitVec.extractLsb'_append_eq_of_le,
      BitVec.extractLsb'_append_eq_of_add_le, Nat.reduceSub, BitVec.extractLsb'_eq_self, imm16_parts]
  all_goals
    simp (disch := omega) only [rxOf, field, encodeI16, BitVec.extractLsb'_append_eq_of_le,
      BitVec.extractLsb'_append_eq_of_add_le, Nat.reduceSub, BitVec.extractLsb'_eq_self]

/-- Format EXT-I9OP (R102). -/
theorem fields_encodeI9Op (sel rx : BitVec 3) (op : BitVec 5) (imm : BitVec 9) :
    field (encodeI9Op sel rx op imm) 27 5 = 0b11110#5 ∧
    field (encodeI9Op sel rx op imm) 25 2 = 0#2 ∧
    field (encodeI9Op sel rx op imm) 16 5 = op ∧
    field (encodeI9Op sel rx op imm) 11 5 = 0b11010#5 ∧
    field (encodeI9Op sel rx op imm) 5 3 = sel ∧
    rxOf (encodeI9Op sel rx op imm) = rx ∧ imm9Of (encodeI9Op sel rx op imm) = imm := by
  refine ⟨?_, ?_, ?_, ?_, ?_, ?_, ?_⟩ <;>
    simp (disch := omega) only [rxOf, imm9Of, field, encodeI9Op, BitVec.extractLsb'_append_eq_of_le,
      BitVec.extractLsb'_append_eq_of_add_le, Nat.reduceSub, BitVec.extractLsb'_eq_self, imm9_parts]

/-- Format EXT-I9RB (R103). -/
theorem fields_encodeI9Rb (major : BitVec 5) (sub : BitVec 2) (sel rx rb : BitVec 3)
    (imm : BitVec 9) :
    field (encodeI9Rb major sub sel rx rb imm) 27 5 = 0b11110#5 ∧
    field (encodeI9Rb major sub sel rx rb imm) 25 2 = 0#2 ∧
    field (encodeI9Rb major sub sel rx rb imm) 19 2 = sub ∧
    field (encodeI9Rb major sub sel rx rb imm) 11 5 = major ∧
    field (encodeI9Rb major sub sel rx rb imm) 5 3 = sel ∧
    rbOf (encodeI9Rb major sub sel rx rb imm) = rb ∧
    rxOf (encodeI9Rb major sub sel rx rb imm) = rx ∧
    imm9Of (encodeI9Rb major sub sel rx rb imm) = imm := by
  refine ⟨?_, ?_, ?_, ?_, ?_, ?_, ?_, ?_⟩ <;>
    simp (disch := omega) only [rxOf, rbOf, imm9Of, field, encodeI9Rb,
      BitVec.extractLsb'_append_eq_of_le, BitVec.extractLsb'_append_eq_of_add_le, Nat.reduceSub,
      BitVec.extractLsb'_eq_self, imm9_parts]

/-- Format EXT-CP0 (R104). -/
theorem fields_encodeCp0 (cp0op : BitVec 5) (sel ry : BitVec 3) (r32 : BitVec 5) :
    field (encodeCp0 cp0op sel ry r32) 27 5 = 0b11110#5 ∧
    field (encodeCp0 cp0op sel ry r32) 24 3 = 0#3 ∧
    field (encodeCp0 cp0op sel ry r32) 21 3 = sel ∧
    field (encodeCp0 cp0op sel ry r32) 16 5 = cp0op ∧
    field (encodeCp0 cp0op sel ry r32) 11 5 = 0b01100#5 ∧
    field (encodeCp0 cp0op sel ry r32) 8 3 = 7#3 ∧
    field (encodeCp0 cp0op sel ry r32) 5 3 = ry ∧
    field (encodeCp0 cp0op sel ry r32) 0 5 = r32 := by
  refine ⟨?_, ?_, ?_, ?_, ?_, ?_, ?_, ?_⟩ <;>
    simp (disch := omega) only [field, encodeCp0, BitVec.extractLsb'_append_eq_of_le,
      BitVec.extractLsb'_append_eq_of_add_le, Nat.reduceSub, BitVec.extractLsb'_eq_self]

/-- Format EXT-SLL (R105). -/
theorem fields_encodeSll (fa : BitVec 5) (b : BitVec 1) (fb : BitVec 5) (rx ry sel : BitVec 3) :
    field (encodeSll fa b fb rx ry sel) 27 5 = 0b11110#5 ∧
    field (encodeSll fa b fb rx ry sel) 22 5 = fa ∧
    field (encodeSll fa b fb rx ry sel) 21 1 = b ∧
    field (encodeSll fa b fb rx ry sel) 16 5 = fb ∧
    field (encodeSll fa b fb rx ry sel) 11 5 = 0b00110#5 ∧
    field (encodeSll fa b fb rx ry sel) 8 3 = rx ∧
    field (encodeSll fa b fb rx ry sel) 5 3 = ry ∧
    field (encodeSll fa b fb rx ry sel) 2 3 = sel ∧
    field (encodeSll fa b fb rx ry sel) 0 2 = 0b00#2 := by
  refine ⟨?_, ?_, ?_, ?_, ?_, ?_, ?_, ?_, ?_⟩ <;>
    simp (disch := omega) only [field, encodeSll, BitVec.extractLsb'_append_eq_of_le,
      BitVec.extractLsb'_append_eq_of_add_le, Nat.reduceSub, BitVec.extractLsb'_eq_self]

/-- Format EXT-SRL (R106). -/
theorem fields_encodeSrl (b : BitVec 1) (rb rx ry sel : BitVec 3) :
    field (encodeSrl b rb rx ry sel) 27 5 = 0b11110#5 ∧
    field (encodeSrl b rb rx ry sel) 22 5 = 0#5 ∧
    field (encodeSrl b rb rx ry sel) 21 1 = b ∧
    field (encodeSrl b rb rx ry sel) 19 2 = 0#2 ∧
    field (encodeSrl b rb rx ry sel) 16 3 = rb ∧
    field (encodeSrl b rb rx ry sel) 11 5 = 0b00110#5 ∧
    field (encodeSrl b rb rx ry sel) 8 3 = rx ∧
    field (encodeSrl b rb rx ry sel) 5 3 = ry ∧
    field (encodeSrl b rb rx ry sel) 2 3 = sel ∧
    field (encodeSrl b rb rx ry sel) 0 2 = 0b10#2 := by
  refine ⟨?_, ?_, ?_, ?_, ?_, ?_, ?_, ?_, ?_, ?_⟩ <;>
    simp (disch := omega) only [field, encodeSrl, BitVec.extractLsb'_append_eq_of_le,
      BitVec.extractLsb'_append_eq_of_add_le, Nat.reduceSub, BitVec.extractLsb'_eq_self]

/-- The fields that an EXT-SLL form without operands fixes as one (R105). -/
theorem wideFields_encodeSll (fa : BitVec 5) (b : BitVec 1) (fb : BitVec 5) (rx ry sel : BitVec 3) :
    field (encodeSll fa b fb rx ry sel) 21 6 = fa ++ b ∧
    field (encodeSll fa b fb rx ry sel) 16 6 = b ++ fb ∧
    field (encodeSll fa b fb rx ry sel) 16 11 = fa ++ b ++ fb ∧
    field (encodeSll fa b fb rx ry sel) 5 6 = rx ++ ry := by
  obtain ⟨-, hfa, hb, hfb, -, hrx, hry, -⟩ := fields_encodeSll fa b fb rx ry sel
  have hwide : field (encodeSll fa b fb rx ry sel) 21 6 = fa ++ b := by
    rw [field_split _ 21 (m := 5) (n := 1), hfa, hb]
  refine ⟨hwide, ?_, ?_, ?_⟩
  · rw [field_split _ 16 (m := 1) (n := 5), hb, hfb]
  · rw [field_split _ 16 (m := 6) (n := 5), hwide, hfb]
  · rw [field_split _ 5 (m := 3) (n := 3), hrx, hry]

/-! ## The agreement -/

/-- Decoding is a left inverse of encoding, by the format of each form (R101 to R106). -/
theorem decodeWord_encode (i : Instr) : decodeWord (encode i) = .ok i := by
  cases i with
  | addiuGp => simp [encode, decodeWord, fields_encodeI16]
  | lui | ori | andi | xori => simp [encode, decodeWord, decodeLi, fields_encodeI16]
  | lw | lh | lb | lhu | lbu => simp [encode, decodeWord, decodeLwsp, fields_encodeI16]
  | ll | lwl | lwr => simp [encode, decodeWord, decodeLwsp, fields_encodeI9Rb]
  | sw | sh | sb => simp [encode, decodeWord, decodeSwsp, fields_encodeI16]
  | pref | cache => simp [encode, decodeWord, decodeSwsp, fields_encodeI9Op]
  | sc | swl | swr => simp [encode, decodeWord, decodeSwsp, fields_encodeI9Rb]
  | insZero | ins | ext | rdhwr | ehb | sync | pause =>
    simp [encode, decodeWord, decodeSll, rxOf, ryOf, fields_encodeSll, wideFields_encodeSll]
  | movz | movzZero | movn | movnZero | movtz | movtzZero | movtn | movtnZero =>
    simp [encode, decodeWord, decodeSrl, rxOf, ryOf, rbOf, fields_encodeSrl]
  | mfc0 | mtc0 | diRy | dmtRy | dvpeRy | eiRy | emtRy | evpeRy | di | dmt | dvpe | ei | emt | evpe =>
    simp [encode, decodeWord, decodeCp0, ryOf, fields_encodeCp0]

/-- A halfword is read back from its bytes in the order they were laid out (R64, R65). -/
theorem halfOfBytes_bytesOfHalf (be : Bool) (h : Half) :
    ∃ b0 b1, bytesOfHalf be h = [b0, b1] ∧ halfOfBytes be b0 b1 = h := by
  cases be <;> exact ⟨_, _, rfl, (extractLsb'_parts 8 8 h).trans BitVec.extractLsb'_eq_self⟩

/-- Over the bytes of a word the decoder reads that word, in either byte order (R80, R100). -/
theorem decodeBytes_bytesOfWord (be : Bool) (w : Word) :
    decodeBytes be (bytesOfWord be w) = decodeWord w := by
  obtain ⟨b0, b1, hhigh, hread0⟩ := halfOfBytes_bytesOfHalf be (w.extractLsb' 16 16)
  obtain ⟨b2, b3, hlow, hread1⟩ := halfOfBytes_bytesOfHalf be (w.extractLsb' 0 16)
  have hword : w.extractLsb' 16 16 ++ w.extractLsb' 0 16 = w :=
    (extractLsb'_parts 16 16 w).trans BitVec.extractLsb'_eq_self
  have hextend : (w.extractLsb' 16 16).extractLsb' 11 5 = field w 27 5 := by
    conv_rhs => rw [field, ← hword, BitVec.extractLsb'_append_eq_of_le (by omega)]
  simp only [bytesOfWord, hhigh, hlow, List.cons_append, List.nil_append, decodeBytes, hread0, hread1,
    hword, hextend]
  split
  · rename_i h
    simp [decodeWord, h]
  · rfl

/-- Settles O2: the words agree form by form, and the bytes of a word decode as the word. -/
theorem decodeEncodeAgree : Obligations.DecodeEncodeAgree := fun i =>
  ⟨decodeWord_encode i, fun be => (decodeBytes_bytesOfWord be _).trans (decodeWord_encode i)⟩

end Sys2Proof
end

section
/-! The family Memory (20_memory.md, 45_loads.md, 47_stores.md): the GP-relative accesses, LL and SC,
and the stores of other agents, with what each leaves in every part of the state. -/

namespace Sys2Proof.Machine

/-! ## The forms that write no memory -/

/-- Only a storing form updates memory. -/
theorem InstrUpdate.mem_eq {i : Instr} (hi : canStore i = false) {s t : State}
    (h : InstrUpdate i s t) : t.mem = s.mem := by
  cases h with
  | store _ _ hs => simp [hi] at hs
  | _ => rfl

theorem InstrUpdates.mem_eq {i : Instr} (hi : canStore i = false) {s t : State}
    (h : InstrUpdates i s t) : t.mem = s.mem :=
  updates_keep (P := fun u => u.mem = s.mem) (fun _ _ huv hu => (huv.mem_eq hi).trans hu) h rfl

/-- Settles O15: no update of such a form writes memory, and neither does its end. -/
theorem onlyStoringFormsWriteMemory : Obligations.OnlyStoringFormsWriteMemory := by
  intro i s t hi h q
  obtain ⟨u, hu, rfl | ⟨-, -, rfl⟩⟩ := exec_completes h
  · rw [advance_mem, hu.mem_eq hi]
  · exact congrArg (readByte · q) (hu.mem_eq hi)

/-! ## The bytes of an access -/

theorem byteSpan_one (p : Nat) : byteSpan p 1 = [p] := by
  simp [byteSpan, List.range_succ]

theorem byteSpan_two (p : Nat) : byteSpan p 2 = [p, p + 1] := by
  simp [byteSpan, List.range_succ]

theorem byteSpan_nodup (p n : Nat) : (byteSpan p n).Nodup :=
  List.nodup_range.map (add_right_injective p)

theorem mem_byteSpan {p n q : Nat} : q ∈ byteSpan p n ↔ p ≤ q ∧ q < p + n := by
  simp only [byteSpan, List.mem_map, List.mem_range]
  constructor
  · rintro ⟨k, hk, rfl⟩
    omega
  · rintro ⟨hp, hq⟩
    exact ⟨q - p, by omega, by omega⟩

/-- A store writes the bytes of its span (R65). -/
theorem writeCells_addresses (be : Bool) (p n : Nat) (v : Word) :
    (writeCells be p n v).map (·.1) = byteSpan p n := by
  simp [writeCells, byteSpan]

theorem writeCells_one (be : Bool) (p : Nat) (v : Word) :
    writeCells be p 1 v = [(p, v.extractLsb' 0 8)] := by
  cases be <;> rfl

theorem writeCells_two (be : Bool) (p : Nat) (v : Word) :
    writeCells be p 2 v =
      if be then [(p, v.extractLsb' 8 8), (p + 1, v.extractLsb' 0 8)]
      else [(p, v.extractLsb' 0 8), (p + 1, v.extractLsb' 8 8)] := by
  cases be <;> rfl

theorem writeCells_four (be : Bool) (p : Nat) (v : Word) :
    writeCells be p 4 v =
      if be then
        [(p, v.extractLsb' 24 8), (p + 1, v.extractLsb' 16 8),
         (p + 2, v.extractLsb' 8 8), (p + 3, v.extractLsb' 0 8)]
      else
        [(p, v.extractLsb' 0 8), (p + 1, v.extractLsb' 8 8),
         (p + 2, v.extractLsb' 16 8), (p + 3, v.extractLsb' 24 8)] := by
  cases be <;> rfl

/-! ## Accesses that do not open (R265) -/

theorem openAccess_misaligned {s : State} {k : AccessKind} {n : Nat} {w b : Bool} {v : Word}
    (h : v.toNat % n ≠ 0) : openAccess s k n w b v = raise (.addressError (flavourOf k) v) :=
  if_pos h

theorem openAccess_untranslated {s : State} {k : AccessKind} {n : Nat} {w b : Bool} {v : Word}
    {e : Trap} (halign : v.toNat % n = 0) (h : translate s k v = .error e) :
    openAccess s k n w b v = raise e := by
  simp [openAccess, halign, h]

theorem openAccess_watched {s : State} {k : AccessKind} {n : Nat} {b : Bool} {v : Word}
    {a : Access} (halign : v.toNat % n = 0) (htrans : translate s k v = .ok a)
    (h : watchAt s.cfg (flavourOf k) v = true) : openAccess s k n true b v = raise .watch := by
  simp [openAccess, halign, htrans, h]

theorem openAccess_busError {s : State} {k : AccessKind} {n : Nat} {w : Bool} {v : Word}
    {a : Access} (halign : v.toNat % n = 0) (htrans : translate s k v = .ok a)
    (hwatch : w = true → watchAt s.cfg (flavourOf k) v = false)
    (h : busErrorAt s.cfg (flavourOf k) a.pAddr = true) :
    openAccess s k n w true v = raise .busError := by
  cases w <;> simp_all [openAccess]

/-! ## Loads -/

theorem checkBytes_of_canRead {s : State} {v : Word} {a : Access} {bs : List Nat}
    (h : CanRead s v a bs) : checkBytes s a bs = .ok () :=
  checkBytes_ok.mpr ⟨h.present, h.oneType⟩

/-- The state an ordinary load of `bs` at `a` leaves, `v` being the value loaded. -/
def loaded (s : State) (rx : RegField) (v : Word) (a : Access) (bs : List Nat) : State :=
  advance (writeX (record (noteLoad s a) (.access .load bs a.cca)) rx v)

theorem loaded_loadsRegister (s : State) (rx : RegField) (v : Word) (a : Access) (bs : List Nat) :
    LoadsRegister s (loaded s rx v a bs) (xLat s.cfg rx) v a bs where
  pc := rfl
  value := holds_advance_writeX (record (noteLoad s a) _) rx v
  others _ hr := readGpr_writeX_other (record (noteLoad s a) _) rx v hr
  memory _ := rfl
  link := ⟨rfl, by simp [loaded, noteLoad, imp_iff_not_or]⟩
  history := rfl
  rest := rfl

/-- Where a GP-relative load completes (R210). -/
theorem gpLoad_loads {s : State} (rx : RegField) {imm : BitVec 16} {n : Nat} (f : Access → Word)
    {a : Access} {bs : List Nat} (hbs : byteSpan a.pAddr n = bs)
    (hbus : busErrorAt s.cfg .load a.pAddr = false) (halign : (gpAddr s imm).toNat % n = 0)
    (hread : CanRead s (gpAddr s imm) a bs) :
    ∃ t, loadResult rx f (gpLoad s imm n) = .next t ∧
      LoadsRegister s t (xLat s.cfg rx) (f a) a bs := by
  have hopen : openAccess s .load n false true (gpAddr s imm) = .ok a :=
    openAccess_eq halign hread.translated (by simp) (fun _ => hbus)
  have hload : loadBytes s a bs = .ok (record (noteLoad s a) (.access .load bs a.cca)) := by
    simp only [loadBytes, checkBytes_of_canRead hread]
  refine ⟨loaded s rx (f a) a bs, ?_, loaded_loadsRegister s rx (f a) a bs⟩
  simp only [gpLoad, hopen, hbs, hload, loadResult, loaded]

/-- Settles O24: each of the five forms is a GP-relative load of its width. -/
theorem gpLoadResults : Obligations.GpLoadResults := by
  intro s rx imm a v p m hbus
  refine ⟨fun hread => ⟨?_, ?_⟩, fun halign hread => ⟨?_, ?_⟩, fun halign hread => ?_⟩
  · exact gpLoad_loads rx _ (byteSpan_one p) hbus (Nat.mod_one _) hread
  · exact gpLoad_loads rx _ (byteSpan_one p) hbus (Nat.mod_one _) hread
  · exact gpLoad_loads rx _ (byteSpan_two p) hbus halign hread
  · exact gpLoad_loads rx _ (byteSpan_two p) hbus halign hread
  · exact gpLoad_loads rx _ (byteSpan_four p) hbus halign hread

/-- A GP-relative load whose access raises ends in that exception (R211). -/
theorem gpLoad_raises {s : State} {rx : RegField} {imm : BitVec 16} {n : Nat} {f : Access → Word}
    {e : Trap} (h : openAccess s .load n false true (gpAddr s imm) = raise e) :
    loadResult rx f (gpLoad s imm n) = .fault (.trap e) := by
  simp only [gpLoad, h, raise, loadResult, stopOutcome]

/-- Settles O25: every case is an access that does not open, in the order of R211. -/
theorem gpLoadExceptions : Obligations.GpLoadExceptions := by
  intro s rx imm v
  have misaligned {n : Nat} {f : Access → Word} (h : v.toNat % n ≠ 0) :
      loadResult rx f (gpLoad s imm n) = .fault (.trap (.addressError .load v)) :=
    gpLoad_raises (openAccess_misaligned h)
  have untranslated {n : Nat} {f : Access → Word} {e : Trap} (he : translate s .load v = .error e)
      (h : v.toNat % n = 0) : loadResult rx f (gpLoad s imm n) = .fault (.trap e) :=
    gpLoad_raises (openAccess_untranslated h he)
  have busError {n : Nat} {f : Access → Word} {a : Access} (ha : translate s .load v = .ok a)
      (hb : busErrorAt s.cfg .load a.pAddr = true) (h : v.toNat % n = 0) :
      loadResult rx f (gpLoad s imm n) = .fault (.trap .busError) :=
    gpLoad_raises (openAccess_busError h ha (by simp) hb)
  refine ⟨fun h => ?_, misaligned, fun e he => ?_, fun a ha hb => ?_⟩
  · have hodd : v.toNat % 2 ≠ 0 := by omega
    exact ⟨misaligned hodd, misaligned hodd⟩
  · exact ⟨untranslated he (Nat.mod_one _), untranslated he (Nat.mod_one _),
      fun h => ⟨untranslated he h, untranslated he h⟩, untranslated he⟩
  · exact ⟨busError ha hb (Nat.mod_one _), busError ha hb (Nat.mod_one _),
      fun h => ⟨busError ha hb h, busError ha hb h⟩, busError ha hb⟩

/-! ## Stores -/

theorem checkCells_of_canWrite {s : State} {v : Word} {a : Access} {cs : List (Nat × Byte)}
    (h : CanWrite s v a (cs.map (·.1))) : checkCells s a cs = .ok () :=
  checkCells_ok.mpr ⟨checkBytes_ok.mpr ⟨h.present, h.oneType⟩,
    fun _ hc => h.writable _ (List.mem_map_of_mem hc)⟩

/-- Cells that can be accessed are refused where one of them is program text (R78). -/
theorem checkCells_text {s : State} {a : Access} {cs : List (Nat × Byte)}
    (hbytes : checkBytes s a (cs.map (·.1)) = .ok ())
    (htext : ∃ q ∈ cs.map (·.1), inText s.cfg q = true) : checkCells s a cs = refuse .textWrite := by
  obtain ⟨q, hq, ht⟩ := htext
  obtain ⟨c, hc, rfl⟩ := List.mem_map.mp hq
  have hany : cs.any (fun c => inText s.cfg c.1) = true := List.any_eq_true.mpr ⟨c, hc, ht⟩
  simp only [checkCells, hbytes, hany, if_true]

theorem storeBytes_eq {s : State} {a : Access} {cs : List (Nat × Byte)}
    (h : checkCells s a cs = .ok ()) :
    storeBytes s a cs = .ok (noteStore (putCells s a cs) a) := by
  simp only [storeBytes, h]

/-- A store ends an open sequence only in the linked block, coherently, where `Config5LLB` is 1 (R255). -/
theorem noteStoreIn_bit (s : State) (inBlock coherent : Bool) :
    (noteStoreIn s inBlock coherent).llBit = true ↔
      s.llBit = true ∧ ¬ (inBlock = true ∧ coherent = true ∧ config5LLB s = true) := by
  simp [noteStoreIn, imp_iff_not_or, or_assoc]

/-- A store taints a sequence that stays open (R255). -/
theorem noteStoreIn_taint (s : State) (inBlock coherent : Bool) :
    (noteStoreIn s inBlock coherent).llTaint = true ↔
      s.llTaint = true ∨ (noteStoreIn s inBlock coherent).llBit = true := by
  simp [noteStoreIn]

/-- The state an ordinary store of `cs` at `a` leaves. -/
def stored (s : State) (a : Access) (cs : List (Nat × Byte)) : State :=
  advance (noteStore (putCells s a cs) a)

theorem stored_stores {s : State} (hwf : Memory.wf s.mem = true) (a : Access)
    {cs : List (Nat × Byte)} (hd : (cs.map (·.1)).Nodup) : Stores s (stored s a cs) a cs where
  pc := rfl
  registers _ := rfl
  stored _ hc := readByte_writeBytes_inside cs hwf hd hc
  others _ hq := readByte_writeBytes_outside cs hwf hq
  link := ⟨noteStoreIn_bit (putCells s a cs) .., noteStoreIn_taint (putCells s a cs) ..⟩
  history := rfl
  rest := rfl

/-- Where a GP-relative store completes (R241). -/
theorem gpStore_stores {s : State} {imm : BitVec 16} {n : Nat} {v : Word} {a : Access}
    {cs : List (Nat × Byte)} {bs : List Nat} (hcs : writeCells s.cfg.bigEndian a.pAddr n v = cs)
    (hbs : byteSpan a.pAddr n = bs) (hwf : Memory.wf s.mem = true)
    (hbus : busErrorAt s.cfg .store a.pAddr = false) (halign : (gpAddr s imm).toNat % n = 0)
    (hwrite : CanWrite s (gpAddr s imm) a bs) :
    ∃ t, storeResult (gpStore s imm n v) = .next t ∧ Stores s t a cs := by
  have hopen : openAccess s .store n false true (gpAddr s imm) = .ok a :=
    openAccess_eq halign hwrite.translated (by simp) (fun _ => hbus)
  have haddr : cs.map (·.1) = byteSpan a.pAddr n := by rw [← hcs, writeCells_addresses]
  have hstore := storeBytes_eq (checkCells_of_canWrite (by rwa [haddr, hbs]) : checkCells s a cs = _)
  refine ⟨stored s a cs, ?_, stored_stores hwf a (haddr ▸ byteSpan_nodup ..)⟩
  simp only [gpStore, hopen, hcs, hstore, storeResult, stored]

/-- Settles O31: each of the three forms is a GP-relative store of its width. -/
theorem gpStoreResults : Obligations.GpStoreResults := by
  intro s rx imm a v p y hwf hbus
  refine ⟨fun hwrite => ?_, fun halign hwrite => ?_, fun halign hwrite => ?_⟩
  · exact gpStore_stores (writeCells_one ..) (byteSpan_one p) hwf hbus (Nat.mod_one _) hwrite
  · exact gpStore_stores (writeCells_two ..) (byteSpan_two p) hwf hbus halign hwrite
  · exact gpStore_stores (writeCells_four ..) (byteSpan_four p) hwf hbus halign hwrite

/-- A GP-relative store whose access raises ends in that exception (R247). -/
theorem gpStore_raises {s : State} {imm : BitVec 16} {n : Nat} {v : Word} {e : Trap}
    (h : openAccess s .store n false true (gpAddr s imm) = raise e) :
    storeResult (gpStore s imm n v) = .fault (.trap e) := by
  simp only [gpStore, h, raise, storeResult, stopOutcome]

/-- A GP-relative store to bytes of which one is program text is refused (R78). -/
theorem gpStore_textWrite {s : State} {imm : BitVec 16} {n : Nat} {v : Word} {a : Access}
    {bs : List Nat} (hbs : byteSpan a.pAddr n = bs) (halign : (gpAddr s imm).toNat % n = 0)
    (htrans : translate s .store (gpAddr s imm) = .ok a)
    (hbus : busErrorAt s.cfg .store a.pAddr = false)
    (hpresent : ∀ q ∈ bs, populated s.cfg q = true) (htype : typeConflict s bs a.cca = false)
    (htext : ∃ q ∈ bs, inText s.cfg q = true) :
    storeResult (gpStore s imm n v) = .refused .textWrite := by
  have hopen : openAccess s .store n false true (gpAddr s imm) = .ok a :=
    openAccess_eq halign htrans (by simp) (fun _ => hbus)
  have haddr : (writeCells s.cfg.bigEndian a.pAddr n v).map (·.1) = bs := by
    rw [writeCells_addresses, hbs]
  have hcheck : checkCells s a (writeCells s.cfg.bigEndian a.pAddr n v) = refuse .textWrite :=
    checkCells_text (by rw [haddr]; exact checkBytes_ok.mpr ⟨hpresent, htype⟩) (by rwa [haddr])
  simp only [gpStore, hopen, storeBytes, hcheck, refuse, storeResult, stopOutcome]

/-- Settles O32: the accesses that do not open in the order of R247, then the refusal of R78. -/
theorem gpStoreExceptions : Obligations.GpStoreExceptions := by
  intro s rx imm v half whole
  have misaligned {n : Nat} {y : Word} (h : v.toNat % n ≠ 0) :
      storeResult (gpStore s imm n y) = .fault (.trap (.addressError .store v)) :=
    gpStore_raises (openAccess_misaligned h)
  have untranslated {n : Nat} {y : Word} {e : Trap} (he : translate s .store v = .error e)
      (h : v.toNat % n = 0) : storeResult (gpStore s imm n y) = .fault (.trap e) :=
    gpStore_raises (openAccess_untranslated h he)
  have busError {n : Nat} {y : Word} {a : Access} (ha : translate s .store v = .ok a)
      (hb : busErrorAt s.cfg .store a.pAddr = true) (h : v.toNat % n = 0) :
      storeResult (gpStore s imm n y) = .fault (.trap .busError) :=
    gpStore_raises (openAccess_busError h ha (by simp) hb)
  refine ⟨fun h => misaligned (n := 2) (by omega), misaligned, fun e he => ?_,
    fun a ha => ⟨fun hb => ?_, fun hbus hp hc ht => ?_, fun h hbus hp hc ht => ?_,
      fun h hbus hp hc ht => ?_⟩⟩
  · exact ⟨untranslated he (Nat.mod_one _), untranslated he, untranslated he⟩
  · exact ⟨busError ha hb (Nat.mod_one _), busError ha hb, busError ha hb⟩
  · exact gpStore_textWrite (byteSpan_one _) (Nat.mod_one _) ha hbus (by simpa using hp) hc
      (by simpa using ht)
  · exact gpStore_textWrite (byteSpan_two _) h ha hbus hp hc ht
  · exact gpStore_textWrite (byteSpan_four _) h ha hbus hp hc ht

end Sys2Proof.Machine
end

section
/-! The family Memory, continued: LL and SC (R218, R242, R243), and the stores of other agents
(R287). -/

namespace Sys2Proof.Machine

/-! ## SC -/

theorem openConditional_of_scOpens {s : State} {imm : BitVec 9} {rb : RegField} {a : Access}
    (h : ScOpens s imm rb a) : openConditional s (baseAddr s rb imm) = .ok a :=
  openConditional_ok.mpr
    ⟨openAccess_eq h.aligned h.translated (fun _ => h.unwatched) (by simp), h.paired⟩

/-- The decision of an SC changes nothing but the number of draws. -/
theorem scState_eq (s : State) (a : Access) :
    scState s a = { s with draws := (scState s a).draws } := by
  unfold scState
  split <;> rfl

theorem scState_of_notDrawn {s : State} {a : Access} (h : scIsDrawn s a = false) :
    scState s a = s := by
  simp [scState, h]

theorem scSucceeds_of_notDrawn {s : State} {a : Access} (h : scIsDrawn s a = false) :
    scSucceeds s a = (s.llBit && decide (a = s.llAddr)) := by
  simp [scSucceeds, h]

/-- The cells of an SC are its word in the current byte order (R242). -/
theorem scCells_eq (s : State) (rx : RegField) (a : Access) :
    scCells s rx a = scWord s rx a.pAddr := writeCells_four ..

theorem scWord_addresses (s : State) (rx : RegField) (p : Nat) :
    (scWord s rx p).map (·.1) = [p, p + 1, p + 2, p + 3] := by
  simp only [scWord]
  split <;> rfl

/-- An SC that is decided against stores nothing (R242). -/
theorem execSc_fails {s : State} (rx : RegField) {imm : BitVec 9} {rb : RegField} {a : Access}
    (hopen : ScOpens s imm rb a) (h : scSucceeds s a = false) :
    ∃ t, execSc rx imm rb s = .next t ∧ ScFailure s t rx ∧ t.draws = (scState s a).draws := by
  refine ⟨advance (clearLink (writeX (scState s a) rx 0#32)), ?_, ?_, rfl⟩
  · simp only [execSc, openConditional_of_scOpens hopen, h, Bool.false_eq_true, if_false]
  · rw [scState_eq s a]
    exact ⟨rfl, holds_advance_writeX { s with draws := _ } rx _,
      fun _ hr => readGpr_writeX_other { s with draws := _ } rx _ hr, fun _ => rfl, rfl, rfl⟩

/-- An SC that is decided for stores its word where the word can be written (R242). -/
theorem execSc_succeeds {s : State} (rx : RegField) {imm : BitVec 9} {rb : RegField} {a : Access}
    (hwf : Memory.wf s.mem = true) (hopen : ScOpens s imm rb a)
    (hwrite : CanWrite s (baseAddr s rb imm) a [a.pAddr, a.pAddr + 1, a.pAddr + 2, a.pAddr + 3])
    (h : scSucceeds s a = true) :
    ∃ t, execSc rx imm rb s = .next t ∧ ScSuccess s t rx a ∧ t.draws = (scState s a).draws := by
  have haddr := scWord_addresses s rx a.pAddr
  have hcheck : checkCells s a (scWord s rx a.pAddr) = .ok () :=
    checkCells_of_canWrite (haddr ▸ hwrite)
  have hd : ((scWord s rx a.pAddr).map (·.1)).Nodup := by
    rw [haddr, ← byteSpan_four]
    exact byteSpan_nodup ..
  refine ⟨advance (clearLink (writeX (putCells (scState s a) a (scWord s rx a.pAddr)) rx 1#32)),
    ?_, ?_, rfl⟩
  · simp only [execSc, openConditional_of_scOpens hopen, h, scCells_eq, hcheck, if_true]
  · rw [scState_eq s a]
    exact
      { pc := rfl
        result := holds_advance_writeX (putCells { s with draws := _ } a _) rx _
        registers := fun _ hr => readGpr_writeX_other (putCells { s with draws := _ } a _) rx _ hr
        stored := fun _ hc => readByte_writeBytes_inside _ hwf hd hc
        others := fun _ hq => readByte_writeBytes_outside _ hwf hq
        bit := rfl, history := rfl, rest := rfl }

/-- Settles O36: neither case is drawn, and neither is an open sequence at the LL's address. -/
theorem scFailsWithoutLink : Obligations.ScFailsWithoutLink := by
  intro s rx imm rb a hopen hcase
  have hdecided : scIsDrawn s a = false ∧ (s.llBit && decide (a = s.llAddr)) = false := by
    obtain ⟨hbit, hseen | hllb⟩ | ⟨hne, hllb⟩ := hcase
    · simp [scIsDrawn, hbit, hseen]
    · simp [scIsDrawn, hbit, hllb]
    · simp [scIsDrawn, hne, hllb]
  obtain ⟨hdrawn, hnot⟩ := hdecided
  have hfails := execSc_fails rx hopen ((scSucceeds_of_notDrawn hdrawn).trans hnot)
  rwa [scState_of_notDrawn hdrawn] at hfails

/-! ## LL directly followed by SC -/

/-- The state an LL leaves, `v` being the value loaded (R218). -/
def linked (s : State) (rx : RegField) (v : Word) (a : Access) : State :=
  advance (writeX (setLink (record s
    (.access .load [a.pAddr, a.pAddr + 1, a.pAddr + 2, a.pAddr + 3] a.cca)) a) rx v)

/-- The load of the LL is of the access type it compares with (R71). -/
theorem typeConflict_linked (s : State) (rx : RegField) (v : Word) (a : Access) (bs : List Nat) :
    typeConflict (linked s rx v a) bs a.cca = typeConflict s bs a.cca := by
  simp [typeConflict, linked]

theorem canWrite_linked {s : State} {v : Word} {a : Access} {bs : List Nat}
    (h : CanWrite s v a bs) (rx : RegField) (w : Word) : CanWrite (linked s rx w a) v a bs where
  translated := h.translated
  present := h.present
  oneType := (typeConflict_linked ..).trans h.oneType
  writable := h.writable

/-- The base register keeps its value where it is not the destination of the LL. -/
theorem baseAddr_linked (s : State) {rx rb : RegField} (h : xLat s.cfg rb ≠ xLat s.cfg rx)
    (imm : BitVec 9) (w : Word) (a : Access) :
    baseAddr (linked s rx w a) rb imm = baseAddr s rb imm :=
  congrArg (· + sext9 imm) (readGpr_writeX_other (setLink (record s _) a) rx w h)

/-- Two instructions in a row lie in the 2048 bytes of R256. -/
theorem windowOk_linked {s : State} (hpc : s.pc.toNat + 8 ≤ 2 ^ 32) (rx : RegField) (v : Word)
    (a : Access) : windowOk (linked s rx v a) = true := by
  have h3 : (s.pc + 3#32).toNat = s.pc.toNat + 3 := by bv_omega
  have h4 : (s.pc + 4#32).toNat = s.pc.toNat + 4 := by bv_omega
  simp [windowOk, linked, h3, h4]

/-- An SC directly after the LL, at its address, is in an intact sequence (R243). -/
theorem scSucceeds_linked {s : State} (hpc : s.pc.toNat + 8 ≤ 2 ^ 32) (rx : RegField) (v : Word)
    (a : Access) : scSucceeds (linked s rx v a) a = true := by
  have hwindow := windowOk_linked hpc rx v a
  have hbit : (linked s rx v a).llBit = true := rfl
  have haddr : (linked s rx v a).llAddr = a := rfl
  have htaint : (linked s rx v a).llTaint = false := rfl
  simp [scSucceeds, scIsDrawn, hbit, haddr, htaint, hwindow]

/-- Settles O38: the LL leaves an intact sequence at its address, and the SC finds the same access. -/
theorem llThenScSucceeds : Obligations.LlThenScSucceeds := by
  intro s rx rz imm rb a v word hbase hpc hwf halign hread hwrite hwatchLoad hwatchStore hsync
  have hll : execLl rx imm rb s = .next (linked s rx (memRead4 s a.pAddr) a) :=
    execLl_eq rx (openLinked_eq halign hread.translated hwatchLoad hsync)
      (checkBytes_of_canRead hread)
  generalize memRead4 s a.pAddr = w at hll
  have hv : baseAddr (linked s rx w a) rb imm = v := baseAddr_linked s hbase.symm imm w a
  have hopen : ScOpens (linked s rx w a) imm rb a :=
    { aligned := (congrArg (·.toNat % 4) hv).trans halign
      translated := (congrArg (translate (linked s rx w a) .store) hv).trans hwrite.translated
      unwatched := (congrArg (watchAt s.cfg .store) hv).trans hwatchStore
      paired := fun _ _ => hsync }
  obtain ⟨u, hsc, hu, -⟩ := execSc_succeeds (s := linked s rx w a) rz hwf hopen
    (by rw [hv]; exact canWrite_linked hwrite rx w) (scSucceeds_linked hpc rx w a)
  exact ⟨_, u, hll, hsc, hu⟩

/-! ## The exceptions of LL and SC -/

theorem execLl_raises {s : State} {rx : RegField} {imm : BitVec 9} {rb : RegField} {e : Trap}
    (h : openAccess s .load 4 true false (baseAddr s rb imm) = raise e) :
    execLl rx imm rb s = .fault (.trap e) := by
  simp only [execLl, openLinked, h, raise, stopOutcome]

theorem execSc_raises {s : State} {rx : RegField} {imm : BitVec 9} {rb : RegField} {e : Trap}
    (h : openAccess s .store 4 true false (baseAddr s rb imm) = raise e) :
    execSc rx imm rb s = .fault (.trap e) := by
  simp only [execSc, openConditional, h, raise, stopOutcome]

/-- LL at a location that is not synchronizable (R75, U13). -/
theorem execLl_notSynchronizable {s : State} {rx : RegField} {imm : BitVec 9} {rb : RegField}
    {a : Access} (h : openAccess s .load 4 true false (baseAddr s rb imm) = .ok a)
    (hsync : a.cca.synchronizable = false) :
    execLl rx imm rb s = .fault (.unpredictable .notSynchronizable) := by
  simp [execLl, openLinked, h, hsync, unpredictable, stopOutcome]

/-- The SC paired with the open LL, at a location that is not synchronizable (U13). -/
theorem execSc_notSynchronizable {s : State} {rx : RegField} {imm : BitVec 9} {rb : RegField}
    {a : Access} (h : openAccess s .store 4 true false (baseAddr s rb imm) = .ok a)
    (hsync : a.cca.synchronizable = false) (hbit : s.llBit = true) (haddr : a = s.llAddr) :
    execSc rx imm rb s = .fault (.unpredictable .notSynchronizable) := by
  simp [execSc, openConditional, h, hsync, hbit, ← haddr, unpredictable, stopOutcome]

/-- Settles O27: the accesses that do not open, then the test of the opened one. -/
theorem linkedExceptions : Obligations.LinkedExceptions := by
  intro s rx imm rb v
  refine ⟨fun h => ⟨execLl_raises (openAccess_misaligned h), execSc_raises (openAccess_misaligned h)⟩,
    fun halign => ⟨fun e he => ?_, fun e he => ?_, fun a ha => ⟨fun hw => ?_, fun hw hs => ?_⟩,
      fun a ha => ⟨fun hw => ?_, fun hw hs hbit haddr => ?_⟩⟩⟩
  · exact execLl_raises (openAccess_untranslated halign he)
  · exact execSc_raises (openAccess_untranslated halign he)
  · exact execLl_raises (openAccess_watched halign ha hw)
  · exact execLl_notSynchronizable (openAccess_eq halign ha (fun _ => hw) (by simp)) hs
  · exact execSc_raises (openAccess_watched halign ha hw)
  · exact execSc_notSynchronizable (openAccess_eq halign ha (fun _ => hw) (by simp)) hs hbit haddr

/-! ## Stores of other agents -/

theorem mem_eventCells {p : Nat} {bytes : List Byte} {c : Nat × Byte} :
    c ∈ eventCells p bytes ↔ ∃ k < bytes.length, c = (p + k, bytes.getD k 0#8) := by
  simp [eventCells, eq_comm]

theorem eventCells_addresses (p : Nat) (bytes : List Byte) :
    (eventCells p bytes).map (·.1) = byteSpan p bytes.length := by
  simp [eventCells, byteSpan]

theorem eventCells_any_eq_false {p : Nat} {bytes : List Byte} {f : Nat → Bool} :
    ((eventCells p bytes).any fun c => f c.1) = false ↔ ∀ k < bytes.length, f (p + k) = false := by
  simp [eventCells]

/-- Where a store of another agent is performed, and what it leaves (R76 item 3). -/
theorem eventStore_eq {s : State} {cs : List (Nat × Byte)}
    (hpresent : ∀ c ∈ cs, populated s.cfg c.1 = true) (htext : ∀ c ∈ cs, inText s.cfg c.1 = false) :
    eventStore s cs = .ok { s with
      mem := writeBytes s.mem cs
      llBit := s.llBit && !(cs.any fun c => inLinkBlock s c.1) } := by
  have hall : cs.all (fun c => populated s.cfg c.1) = true := List.all_eq_true.mpr hpresent
  have hany : cs.any (fun c => inText s.cfg c.1) = false := by simpa using htext
  simp only [eventStore, hall, hany, Bool.not_true, Bool.false_eq_true, if_false]

/-- A gap with one event in it. -/
theorem deliver_single {s t : State} {e : EnvEvent} {rest : List (List EnvEvent)}
    (henv : s.env = [e] :: rest) (h : applyEvent { s with env := rest } e = .ok t) :
    deliver s = .ok t := by
  simp only [deliver, henv, applyEvents, h]

/-- Settles O39: the one event of the gap is a store, whose cells are the bytes from `p` on. -/
theorem remoteStoreClearsLlbit : Obligations.RemoteStoreClearsLlbit := by
  intro s p bytes rest henv hwf hbytes
  have hcell : ∀ c ∈ eventCells p bytes, populated s.cfg c.1 = true ∧ inText s.cfg c.1 = false := by
    intro c hc
    obtain ⟨k, hk, rfl⟩ := mem_eventCells.mp hc
    exact hbytes k hk
  have hstore := eventStore_eq (s := { s with env := rest }) (fun c hc => (hcell c hc).1)
    (fun c hc => (hcell c hc).2)
  refine ⟨_, deliver_single henv hstore, fun k hk => ?inside, fun q hq => ?outside, ?link, rfl⟩
  case inside =>
    exact readByte_writeBytes_inside _ hwf (eventCells_addresses p bytes ▸ byteSpan_nodup ..)
      (mem_eventCells.mpr ⟨k, hk, rfl⟩)
  case outside =>
    refine readByte_writeBytes_outside _ hwf ?_
    rw [eventCells_addresses, mem_byteSpan]
    omega
  case link =>
    show (s.llBit && !((eventCells p bytes).any fun c => inLinkBlock s c.1)) = true ↔ _
    rw [Bool.and_eq_true, Bool.not_eq_true', eventCells_any_eq_false]

end Sys2Proof.Machine
end

section
/-! The family Barriers (43_barriers.md): the blocked stream, and what a SYNC between two accesses
orders (R197, R198). -/

namespace Sys2Proof.Machine

/-! ## The blocked stream -/

/-- A blocked stream polls its PAUSE after the events of other agents (R192). -/
theorem step_eq_pollPause {s u : State} (hu : deliver s = .ok u) (hw : u.waiting = true) :
    step s = .next (pollPause u) := by
  simp only [step, hu, hw, if_true]

/-- A poll leaves the stream blocked or resumes it after the PAUSE. -/
theorem pollPause_cases (s : State) :
    pollPause s = { s with draws := (pollPause s).draws } ∨
      pollPause s = { s with waiting := false, pc := s.pc + 4#32, draws := (pollPause s).draws } := by
  simp only [pollPause]
  split <;> split
  · exact .inr rfl
  · exact .inr rfl
  · exact .inl rfl
  · exact .inl rfl

theorem pollPause_of_noLink {s : State} (h : s.llBit = false) :
    pollPause s = { s with waiting := false, pc := s.pc + 4#32 } := by
  simp [pollPause, resumes, resumeIsDrawn, h, advance]

theorem pollPause_of_noEarly {s : State} (hbit : s.llBit = true)
    (hearly : s.cfg.pauseMayResumeEarly = false) : pollPause s = s := by
  simp [pollPause, resumes, resumeIsDrawn, hbit, hearly]

/-- Settles O52: the step is a poll, which goes on for certain or not at all outside a draw. -/
theorem blockedStreamWaits : Obligations.BlockedStreamWaits := fun _ u hu hw =>
  ⟨pollPause u, step_eq_pollPause hu hw, pollPause_cases u, pollPause_of_noLink,
    pollPause_of_noEarly⟩

/-! ## The barriers of the stypes (R196, R197) -/

/-- An optional stype is its row of R197 where it is implemented, else the full barrier. -/
theorem syncBarrier_optional (cfg : Config) {n : BitVec 5} {b : BarrierKind}
    (hb : orderingBarrier n = some b) :
    syncBarrier cfg n = if cfg.syncOptional.contains n then b else fullBarrier := by
  have hn : n ≠ 0#5 := by
    rintro rfl
    cases hb
  simp only [syncBarrier, hn, hb, if_false]

/-- The optional stypes of R197 have no column C. -/
theorem orderingBarrier_completesNothing {n : BitVec 5} (hn : n ∈ [4#5, 16#5, 17#5, 18#5, 19#5]) :
    ∃ b, orderingBarrier n = some b ∧ b.doneLoads = false ∧ b.doneStores = false := by
  simp only [List.mem_cons, List.not_mem_nil, or_false] at hn
  rcases hn with rfl | rfl | rfl | rfl | rfl <;> exact ⟨_, rfl, rfl, rfl⟩

/-! ## Two accesses with one barrier between -/

/-- Every access but a fetch counts as a load or as a store. -/
theorem countsAsLoad_or_countsAsStore {k : AccessKind} (h : k ≠ .fetch) :
    (countsAsLoad k || countsAsStore k) = true := by
  cases k with
  | fetch => exact absurd rfl h
  | load | store | cacheop | pref => rfl

theorem completedBefore_single {cfg : Config} (h : cfg.stronglyOrdered = false) (a b : MemEvent)
    (k : BarrierKind) : completedBefore cfg a b [.barrier k] = (doneOf k a && youngerOf k b) :=
  barrierActs_single h _ k

theorem orderedBefore_single {cfg : Config} (h : cfg.stronglyOrdered = false) (a b : MemEvent)
    (k : BarrierKind) :
    orderedBefore cfg a b [.barrier k] =
      (doneOf k a && youngerOf k b || olderOf k a && youngerOf k b) := by
  simp only [orderedBefore, completedBefore_single h, barrierActs_single h, h, Bool.false_and,
    Bool.false_or]

/-- With nothing between, two accesses are ordered on a strongly ordered system alone. -/
theorem orderedBefore_nil (cfg : Config) (a b : MemEvent) :
    orderedBefore cfg a b [] = (cfg.stronglyOrdered && isAccess a && isAccess b) := by
  simp [orderedBefore, completedBefore, barrierActs]

theorem completedBefore_strong {cfg : Config} (h : cfg.stronglyOrdered = true) (a b : MemEvent)
    (between : List MemEvent) : completedBefore cfg a b between = false :=
  barrierActs_strong h _ between

/-- On a strongly ordered system no SYNC changes the order (R73). -/
theorem orderedBefore_strong {cfg : Config} (h : cfg.stronglyOrdered = true) (a b : MemEvent)
    (between : List MemEvent) :
    orderedBefore cfg a b between = (isAccess a && isAccess b) := by
  simp only [orderedBefore, completedBefore_strong h, barrierActs_strong h, h, Bool.true_and,
    Bool.or_false]

/-- The full barrier completes an access it affects before any such younger one (R197). -/
theorem completedBefore_fullBarrier {cfg : Config} (h : cfg.stronglyOrdered = false)
    {j k : AccessKind} (bs ds : List Nat) {c d : Cca} (hc : barrierAffects c = true)
    (hd : barrierAffects d = true) (hj : j ≠ .fetch) (hk : k ≠ .fetch) :
    completedBefore cfg (.access j bs c) (.access k ds d) [.barrier fullBarrier] = true := by
  simp [completedBefore_single h, doneOf, youngerOf, fullBarrier, hc, hd,
    countsAsLoad_or_countsAsStore hj, countsAsLoad_or_countsAsStore hk]

/-- Settles O54: the columns of each row, read off its barrier. -/
theorem syncOrdersItsRow : Obligations.SyncOrdersItsRow := by
  intro cfg j k bs ds c d hc hd hj hk ordered completed unseparated
  refine ⟨fun hs => ?strong, fun hs => ?weak⟩
  case strong =>
    have hun : unseparated = true := orderedBefore_strong hs ..
    exact ⟨hun, fun n => ⟨(orderedBefore_strong hs ..).trans hun.symm, completedBefore_strong hs ..⟩⟩
  case weak =>
    have hloadj := countsAsLoad_or_countsAsStore hj
    have hloadk := countsAsLoad_or_countsAsStore hk
    have hfull := completedBefore_fullBarrier hs bs ds hc hd hj hk
    have row {n : BitVec 5} {b : BarrierKind} (hb : orderingBarrier n = some b)
        (hn : n ∈ cfg.syncOptional) :
        ordered n = (doneOf b (.access j bs c) && youngerOf b (.access k ds d) ||
          olderOf b (.access j bs c) && youngerOf b (.access k ds d)) := by
      simp only [ordered, syncBarrier_optional cfg hb, List.contains_iff_mem.mpr hn, if_true,
        orderedBefore_single hs]
    refine ⟨orderedBefore_of_completedBefore hfull, fun hn => ?_, fun hn => ?_, fun hn => ?_,
      fun hn => ?_, fun hn => ?_, ?_, hfull, fun n hn => ?_⟩
    iterate 5
      rw [row rfl hn]
      simp [doneOf, olderOf, youngerOf, hc, hd, hloadj, hloadk]
    · simp only [unseparated, orderedBefore_nil, hs, Bool.false_and]
    · obtain ⟨b, hb, hloads, hstores⟩ := orderingBarrier_completesNothing hn
      simp only [completed, syncBarrier_optional cfg hb]
      split
      · rename_i hin
        rw [completedBefore_single hs, hin]
        simp [doneOf, hloads, hstores]
      · rename_i hout
        rw [hfull, Bool.eq_false_of_not_eq_true hout, Bool.not_false]

/-! ## SYNC between two stores -/

/-- A store that completes is the newest event of the history (R198). -/
theorem execSw_history {s t : State} {rx : RegField} {imm : BitVec 16}
    (h : execSw rx imm s = .next t) :
    t.cfg = s.cfg ∧ ∃ bs cca, t.history = .access .store bs cca :: s.history := by
  obtain ⟨u, hstore, rfl⟩ := storeResult_next h
  obtain ⟨a, -, hb⟩ := gpStore_ok hstore
  obtain ⟨-, rfl⟩ := storeBytes_ok hb
  exact ⟨rfl, _, _, rfl⟩

/-- Settles O55: stype 0 stands between the two stores, and the admitted times obey it. -/
theorem syncOrdersTwoStores : Obligations.SyncOrdersTwoStores := by
  intro s t u w rx rz i j hfirst hsync hsecond
  obtain ⟨htcfg, bs, c, ht⟩ := execSw_history hfirst
  obtain ⟨-, ds, d, hw⟩ := execSw_history hsecond
  have hu : u.history = .barrier fullBarrier :: t.history := by cases hsync; rfl
  have hhistory : w.history =
      .access .store ds d :: .barrier fullBarrier :: .access .store bs c :: s.history := by
    rw [hw, hu, ht]
  refine ⟨bs, c, fullBarrier, ds, d, hhistory, fun agents time hadm => ⟨fun hs hc hd => ?_,
    fun hs => ?_⟩⟩
  · rw [hhistory] at hadm
    exact (Admitted.barrier (newer := []) hadm).1
      (completedBefore_fullBarrier hs bs ds hc hd (by decide) (by decide))
  · exact (admitted_strong hs).mp hadm [] [.barrier fullBarrier] s.history _ _ hhistory rfl rfl

end Sys2Proof.Machine
end

section
/-! The family Cache (41_cache_prefetch.md): where CACHE and PREF complete, and the state they leave. -/

namespace Sys2Proof.Machine

/-! ## CACHE -/

/-- The operations by address are those from 16 on (R152). -/
theorem addressOp_iff : ∀ op : BitVec 5, addressOp op = true ↔ 16 ≤ op.toNat := by decide

/-- Index Load Tag is the operation code of 4 to 7 (R152). -/
theorem cacheCode_loadTag : ∀ op : BitVec 5, 4 ≤ op.toNat → op.toNat ≤ 7 → cacheCode op = 1#3 := by
  decide

theorem cacheEffect_keep {cfg : Config} {op : BitVec 5} (h : cfg.cacheOp[op.toFin] = .keep) :
    cacheEffect cfg op = .keep := by
  simp only [cacheEffect, h]

/-- Index Load Tag loads the tag also where the parameter speaks of a Cache Error (R150). -/
theorem cacheEffect_loadTag {cfg : Config} {op : BitVec 5}
    (h : cfg.cacheOp[op.toFin] = .loadTag ∨
      (cfg.cacheOp[op.toFin] = .cacheError ∧ 4 ≤ op.toNat ∧ op.toNat ≤ 7)) :
    cacheEffect cfg op = .loadTag := by
  obtain h | ⟨h, hlow, hhigh⟩ := h
  · simp only [cacheEffect, h]
  · simp only [cacheEffect, h, cacheCode_loadTag op hlow hhigh, if_true]

/-- CACHE in a use that R153 does not exclude ends as its effect says (R151). -/
theorem execCache_eq {s : State} {op : BitVec 5} {imm : BitVec 9} {rx : RegField} {a : Access}
    (hsure : cop0Sure s) (htrans : translate s .cacheop (baseAddr s rx imm) = .ok a)
    (hcached : 16 ≤ op.toNat → a.cca.cached = true) (hown : mayHitOwnLine s op a = false) :
    execCache op imm rx s = cacheFinish s a (cacheEffect s.cfg op) := by
  have huse : checkCacheUse s op a = .ok () :=
    checkCacheUse_ok.mpr ⟨fun h => hcached ((addressOp_iff op).mp h), hown⟩
  simp only [execCache, requireCop0_of_sure hsure, htrans, cacheOperation, huse, ite_self]

theorem readCp0_drawn_writeCp0 (s : State) {q r : Cp0Reg} (v : Word) (h : q ≠ r) :
    readCp0 (drawn (writeCp0 s r v)) q = readCp0 s q := by
  rw [readCp0_drawn, readCp0_writeCp0, if_neg h]

/-- A register that takes a free value where it exists leaves every other one. -/
theorem readCp0_drawn_writeCp0_if (s : State) {q r : Cp0Reg} (v : Word)
    (h : cp0Implemented s.cfg r = true → q ≠ r) :
    readCp0 (if cp0Implemented s.cfg r then drawn (writeCp0 s r v) else s) q = readCp0 s q := by
  split
  · rename_i hr
    exact readCp0_drawn_writeCp0 s v (h hr)
  · rfl

/-- Index Load Tag writes TagLo and TagHi, and those of DataLo and DataHi that exist (R42, R151). -/
theorem readCp0_loadTag {s : State} {q : Cp0Reg} (htagLo : q ≠ tagLoReg) (htagHi : q ≠ tagHiReg)
    (hdataLo : cp0Implemented s.cfg dataLoReg = true → q ≠ dataLoReg)
    (hdataHi : cp0Implemented s.cfg dataHiReg = true → q ≠ dataHiReg) :
    readCp0 (loadTag s) q = readCp0 s q := by
  have hcfg (u : State) (v : Word) :
      (if cp0Implemented u.cfg dataLoReg then drawn (writeCp0 u dataLoReg v) else u).cfg = u.cfg := by
    split <;> rfl
  simp only [loadTag]
  rw [readCp0_drawn_writeCp0_if _ _ (by rw [hcfg]; exact hdataHi),
    readCp0_drawn_writeCp0_if _ _ (by exact hdataLo), readCp0_drawn_writeCp0 _ _ htagHi,
    readCp0_drawn_writeCp0 _ _ htagLo]

theorem readCp0_loadTag_other {s : State} {q : Cp0Reg}
    (h : q ∉ [tagLoReg, tagHiReg, dataLoReg, dataHiReg]) :
    readCp0 (loadTag s) q = readCp0 s q := by
  simp only [List.mem_cons, List.not_mem_nil, or_false, not_or] at h
  obtain ⟨htagLo, htagHi, hdataLo, hdataHi⟩ := h
  exact readCp0_loadTag htagLo htagHi (fun _ => hdataLo) fun _ => hdataHi

/-- DataLo and DataHi keep their cells where they do not exist (R42). -/
theorem readCp0_loadTag_absent {s : State} {q : Cp0Reg} (h : q ∈ [dataLoReg, dataHiReg])
    (habsent : cp0Implemented s.cfg q = false) : readCp0 (loadTag s) q = readCp0 s q := by
  simp only [List.mem_cons, List.not_mem_nil, or_false] at h
  obtain rfl | rfl := h
  · exact readCp0_loadTag (by decide) (by decide) (by simp [habsent]) fun _ => by decide
  · exact readCp0_loadTag (by decide) (by decide) (fun _ => by decide) (by simp [habsent])

/-- Index Load Tag changes coprocessor 0 and the number of draws, nothing else. -/
theorem loadTag_eq (s : State) : ∃ cells n, loadTag s = { s with cp0 := cells, draws := n } := by
  have hdraw {u : State} (r : Cp0Reg) (v : Word)
      (h : ∃ cells n, u = { s with cp0 := cells, draws := n }) :
      ∃ cells n, drawn (writeCp0 u r v) = { s with cp0 := cells, draws := n } := by
    obtain ⟨cells, n, rfl⟩ := h
    exact ⟨_, _, rfl⟩
  have htags (v w : Word) := hdraw tagHiReg w (hdraw tagLoReg v ⟨s.cp0, s.draws, rfl⟩)
  simp only [loadTag]
  split <;> split
  · exact hdraw _ _ (hdraw _ _ (htags _ _))
  · exact hdraw _ _ (htags _ _)
  · exact hdraw _ _ (htags _ _)
  · exact htags _ _

@[simp] theorem readCp0_cacheDone (s : State) (a : Access) (q : Cp0Reg) :
    readCp0 (cacheDone s a) q = readCp0 s q := rfl

/-- Settles O56: the use is admitted, so the effect decides; then the laws of `loadTag`. -/
theorem cacheResult : Obligations.CacheResult := by
  intro s op imm rx a hsure htrans hcached hown
  have hexec : exec (.cache op imm rx) s = cacheFinish s a (cacheEffect s.cfg op) :=
    execCache_eq hsure htrans hcached hown
  refine ⟨fun hkeep => ?_, fun hload => ?_⟩
  · rw [hexec, cacheEffect_keep hkeep]
    rfl
  · rw [cacheEffect_loadTag hload] at hexec
    obtain ⟨cells, n, hsame⟩ := loadTag_eq s
    refine ⟨cacheDone (loadTag s) a, hexec, ?_, ?_, ?_, fun q => ?_, fun g => ?_,
      fun q hq => ?other, fun q hq habsent => ?absent, ?_⟩
    case other => rw [readCp0_cacheDone, readCp0_loadTag_other hq]
    case absent => rw [readCp0_cacheDone, readCp0_loadTag_absent hq habsent]
    all_goals
      rw [hsame]
      rfl

/-! ## PREF -/

/-- The hints that are Reserved Instruction from Release 6 on (R157) are not meant. -/
theorem prefHint_defined {s : State} {hint : BitVec 5}
    (h : s.cfg.archRevision < 6 ∨ hint.toNat < 24) :
    ¬ (s.cfg.archRevision ≥ 6 ∧ 24 ≤ hint.toNat) := by
  omega

/-- PREF of an address that does not translate only taints an open sequence (R155). -/
theorem execPref_untranslated {s : State} {hint : BitVec 5} {imm : BitVec 9} {rx : RegField}
    {e : Trap} (h : s.cfg.archRevision < 6 ∨ hint.toNat < 24)
    (htrans : translate s .pref (baseAddr s rx imm) = .error e) :
    execPref hint imm rx s = .next (advance (taintLink s)) := by
  simp only [execPref, prefHint_defined h, if_false, htrans]

/-- PREF of an address that translates is its prefetch (R155). -/
theorem execPref_translated {s t : State} {hint : BitVec 5} {imm : BitVec 9} {rx : RegField}
    {a : Access} (h : s.cfg.archRevision < 6 ∨ hint.toNat < 24)
    (htrans : translate s .pref (baseAddr s rx imm) = .ok a) (hp : prefetch s hint a = .ok t) :
    execPref hint imm rx s = .next (advance (taintLink t)) := by
  simp only [execPref, prefHint_defined h, if_false, htrans, hp]

theorem prefetch_uncached {s : State} {hint : BitVec 5} {a : Access} (h : a.cca.cached = false) :
    prefetch s hint a = .ok s := by
  simp [prefetch, h]

theorem prefetch_cached {s : State} {hint : BitVec 5} {a : Access} (h : a.cca.cached = true)
    (hhint : hint ≠ 30#5) :
    prefetch s hint a = .ok (record s (.access .pref [a.pAddr] a.cca)) := by
  simp [prefetch, h, hhint]

theorem prefetch_prepareForStore {s t : State} {a : Access} (h : a.cca.cached = true)
    (hp : prepareForStore s a = .ok t) :
    prefetch s 30#5 a = .ok (record t (.access .pref [a.pAddr] a.cca)) := by
  simp [prefetch, h, hp]

/-- Settles O58: the prefetch leaves the state but for its place in the history. -/
theorem prefResult : Obligations.PrefResult := by
  intro s hint imm rx hrel r
  refine ⟨?_, fun a ha hcached hhint =>
    execPref_translated hrel ha (prefetch_cached hcached hhint)⟩
  rintro (⟨e, he⟩ | ⟨a, ha, huncached⟩)
  · exact execPref_untranslated hrel he
  · exact execPref_translated hrel ha (prefetch_uncached huncached)

/-! ## PrepareForStore -/

theorem lineCells_addresses (n p : Nat) : (lineCells n p).map (·.1) = byteSpan (p / n * n) n := by
  simp [lineCells, Function.comp_def]

theorem mem_lineCells {n p : Nat} {c : Nat × Byte} :
    c ∈ lineCells n p ↔ ∃ k < n, c = (p / n * n + k, 0#8) := by
  simp [lineCells, byteSpan, eq_comm]

theorem lineCells_any {n p : Nat} {f : Nat → Bool} :
    (lineCells n p).any (fun c => f c.1) = true ↔ ∃ k < n, f (p / n * n + k) = true := by
  simp [lineCells, byteSpan]

/-- A hit changes nothing (R156). -/
theorem prepareForStore_hit {s : State} {a : Access} {n : Nat}
    (hline : s.cfg.cacheLineLog2 = some n) (h : drawBool s = true) :
    prepareForStore s a = .ok (drawn s) := by
  simp only [prepareForStore, hline, h, if_true]

/-- A miss zeroes the aligned line as a store of this processor (R156). -/
theorem prepareForStore_miss {s : State} {a : Access} {n : Nat}
    (hline : s.cfg.cacheLineLog2 = some n) (h : drawBool s = false)
    (hcheck : checkCells s a (lineCells (2 ^ n) a.pAddr) = .ok ()) :
    prepareForStore s a = .ok (noteStoreIn (putCells (drawn s) a (lineCells (2 ^ n) a.pAddr))
      ((lineCells (2 ^ n) a.pAddr).any fun c => inLinkBlock s c.1) a.cca.coherent) := by
  have hdrawn : checkCells (drawn s) a (lineCells (2 ^ n) a.pAddr) = .ok () := hcheck
  simp only [prepareForStore, hline, h, Bool.false_eq_true, if_false, zeroLine, hdrawn]
  rfl

/-- The state a PREF leaves that has stored `cells` (R156). -/
def prefStored (s : State) (a : Access) (cells : List (Nat × Byte)) : State :=
  advance (taintLink (record (noteStoreIn (putCells (drawn s) a cells)
    (cells.any fun c => inLinkBlock s c.1) a.cca.coherent) (.access .pref [a.pAddr] a.cca)))

@[simp] theorem prefStored_pc (s : State) (a : Access) (cells : List (Nat × Byte)) :
    (prefStored s a cells).pc = s.pc + 4#32 := by
  simp [prefStored]

@[simp] theorem prefStored_draws (s : State) (a : Access) (cells : List (Nat × Byte)) :
    (prefStored s a cells).draws = s.draws + 1 := by
  simp [prefStored]

@[simp] theorem readGpr_prefStored (s : State) (a : Access) (cells : List (Nat × Byte)) (g : RegNum) :
    readGpr (prefStored s a cells) g = readGpr s g := by
  simp [prefStored]

@[simp] theorem prefStored_mem (s : State) (a : Access) (cells : List (Nat × Byte)) :
    (prefStored s a cells).mem = writeBytes s.mem cells := by
  simp [prefStored]

@[simp] theorem prefStored_history (s : State) (a : Access) (cells : List (Nat × Byte)) :
    (prefStored s a cells).history =
      .access .pref [a.pAddr] a.cca :: .access .store (cells.map (·.1)) a.cca :: s.history := by
  simp [prefStored]

theorem prefStored_bit (s : State) (a : Access) (cells : List (Nat × Byte)) :
    (prefStored s a cells).llBit = true ↔
      s.llBit = true ∧ ¬ (cells.any (fun c => inLinkBlock s c.1) = true ∧ a.cca.coherent = true ∧
        config5LLB s = true) :=
  noteStoreIn_bit (putCells (drawn s) a cells) ..

theorem prefStored_taint (s : State) (a : Access) (cells : List (Nat × Byte)) :
    (prefStored s a cells).llTaint = true ↔
      s.llTaint = true ∨ (prefStored s a cells).llBit = true := by
  simp [prefStored, noteStoreIn_taint]

/-- Only these parts of the state change in such a PREF. -/
theorem prefStored_eq (s : State) (a : Access) (cells : List (Nat × Byte)) :
    let t := prefStored s a cells
    t = { s with pc := t.pc, mem := t.mem, llBit := t.llBit, llTaint := t.llTaint
                 history := t.history, draws := t.draws } := by
  simp only [prefStored, advance, taintLink, record, noteStoreIn, putCells, drawn]

/-- Settles O59, by the draw of hit or miss (D27). -/
theorem prepareForStoreResult : Obligations.PrepareForStoreResult := by
  intro s imm rx a n line bytes hrel hwf hlog htrans hcached hline htype
  have hexec {t : State} (h : prepareForStore s a = .ok t) :=
    execPref_translated (.inl hrel) htrans (prefetch_prepareForStore hcached h)
  cases hdraw : drawBool s with
  | true =>
    exact ⟨_, hexec (prepareForStore_hit hlog hdraw), rfl, rfl, fun _ => rfl, fun _ _ => rfl,
      .inl ⟨fun _ => rfl, rfl, rfl, rfl⟩, rfl⟩
  | false =>
    have haddr : (lineCells (2 ^ n) a.pAddr).map (·.1) = bytes := lineCells_addresses ..
    have hd : ((lineCells (2 ^ n) a.pAddr).map (·.1)).Nodup := by
      rw [lineCells_addresses]
      exact byteSpan_nodup ..
    have hcell : ∀ c ∈ lineCells (2 ^ n) a.pAddr,
        populated s.cfg c.1 = true ∧ inText s.cfg c.1 = false := by
      intro c hc
      obtain ⟨k, hk, rfl⟩ := mem_lineCells.mp hc
      exact hline k hk
    have hcheck : checkCells s a (lineCells (2 ^ n) a.pAddr) = .ok () :=
      checkCells_ok.mpr ⟨checkBytes_ok.mpr ⟨List.forall_mem_map.mpr fun c hc => (hcell c hc).1,
        haddr ▸ htype⟩, fun c hc => (hcell c hc).2⟩
    refine ⟨prefStored s a (lineCells (2 ^ n) a.pAddr),
      hexec (prepareForStore_miss hlog hdraw hcheck), prefStored_pc .., prefStored_draws ..,
      readGpr_prefStored s a _, fun q hq => ?outside,
      .inr ⟨fun k hk => ?zero, ?bit, prefStored_taint .., ?history⟩, prefStored_eq ..⟩
    case outside =>
      rw [prefStored_mem]
      refine readByte_writeBytes_outside _ hwf ?_
      rw [lineCells_addresses, mem_byteSpan]
      omega
    case zero =>
      rw [prefStored_mem]
      exact readByte_writeBytes_inside _ hwf hd (mem_lineCells.mpr ⟨k, hk, rfl⟩)
    case bit => rw [prefStored_bit, lineCells_any]
    case history => rw [prefStored_history, haddr]

end Sys2Proof.Machine
end

section
/-! The family Encoding (30_encoding.md): a word put together again from its fields, and the rows of
R112. -/

namespace Sys2Proof

open Sys2Proof.Machine

/-! ## A word from its fields -/

/-- The parts of the immediate that a word carries, by where they lie in the word (R108). -/
theorem imm16Of_parts (w : Word) :
    (imm16Of w).extractLsb' 5 6 = field w 21 6 ∧ (imm16Of w).extractLsb' 11 5 = field w 16 5 ∧
    (imm16Of w).extractLsb' 0 5 = field w 0 5 := by
  refine ⟨?_, ?_, ?_⟩ <;>
    simp (disch := omega) only [imm16Of, BitVec.extractLsb'_append_eq_of_le,
      BitVec.extractLsb'_append_eq_of_add_le, Nat.reduceSub, BitVec.extractLsb'_eq_self]

/-- The parts of the immediate that a word carries, by where they lie in the word (R109). -/
theorem imm9Of_parts (w : Word) :
    (imm9Of w).extractLsb' 5 4 = field w 21 4 ∧ (imm9Of w).extractLsb' 0 5 = field w 0 5 :=
  ⟨BitVec.extractLsb'_append_eq_left, BitVec.extractLsb'_append_eq_right⟩

/-- A field whose value is known in two parts is known in each part. -/
theorem field_append {w : Word} {lo m n : Nat} {x : BitVec m} {y : BitVec n}
    (h : field w lo (m + n) = x ++ y) : field w (lo + n) m = x ∧ field w lo n = y := by
  rw [field_split] at h
  constructor
  · simpa only [BitVec.extractLsb'_append_eq_left] using congrArg (·.extractLsb' n m) h
  · simpa only [BitVec.extractLsb'_append_eq_right] using congrArg (·.extractLsb' 0 n) h

section
variable {w : Word} {major fa fb cp0op r32 : BitVec 5} {sub : BitVec 2} {b : BitVec 1}
  {sel rx ry rb : BitVec 3}

/-- Format EXT-I16 (R101). -/
theorem encodeI16_fields (hextend : field w 27 5 = 0b11110#5) (hmajor : field w 11 5 = major)
    (hsel : field w 5 3 = sel) : encodeI16 major sel (rxOf w) (imm16Of w) = w := by
  obtain ⟨hmid, hhigh, hlow⟩ := imm16Of_parts w
  subst hmajor hsel
  rw [encodeI16, hmid, hhigh, hlow, ← hextend]
  simp (disch := rfl) only [rxOf, field, BitVec.extractLsb'_append_extractLsb'_eq_extractLsb']
  exact BitVec.extractLsb'_eq_self

/-- Format EXT-I9OP (R102). -/
theorem encodeI9Op_fields (hextend : field w 27 5 = 0b11110#5) (hmajor : field w 11 5 = 0b11010#5)
    (hsel : field w 5 3 = sel) (hzero : field w 25 2 = 0#2) :
    encodeI9Op sel (rxOf w) (field w 16 5) (imm9Of w) = w := by
  obtain ⟨hhigh, hlow⟩ := imm9Of_parts w
  subst hsel
  rw [encodeI9Op, hhigh, hlow, ← hextend, ← hmajor, ← hzero]
  simp (disch := rfl) only [rxOf, field, BitVec.extractLsb'_append_extractLsb'_eq_extractLsb']
  exact BitVec.extractLsb'_eq_self

/-- Format EXT-I9RB (R103). -/
theorem encodeI9Rb_fields (hextend : field w 27 5 = 0b11110#5) (hmajor : field w 11 5 = major)
    (hsel : field w 5 3 = sel) (hzero : field w 25 2 = 0#2) (hsub : field w 19 2 = sub) :
    encodeI9Rb major sub sel (rxOf w) (rbOf w) (imm9Of w) = w := by
  obtain ⟨hhigh, hlow⟩ := imm9Of_parts w
  rw [encodeI9Rb, hhigh, hlow, ← hextend, ← hzero]
  subst hmajor hsel hsub
  simp (disch := rfl) only [rxOf, rbOf, field, BitVec.extractLsb'_append_extractLsb'_eq_extractLsb']
  exact BitVec.extractLsb'_eq_self

/-- Format EXT-CP0 (R104). -/
theorem encodeCp0_fields (hextend : field w 27 5 = 0b11110#5) (hmajor : field w 11 5 = 0b01100#5)
    (hmovr : field w 8 3 = 7#3) (hzero : field w 24 3 = 0#3) (hop : field w 16 5 = cp0op)
    (hsel : field w 21 3 = sel) (hry : field w 5 3 = ry) (hr32 : field w 0 5 = r32) :
    encodeCp0 cp0op sel ry r32 = w := by
  rw [encodeCp0, ← hextend, ← hmajor, ← hmovr, ← hzero]
  subst hop hsel hry hr32
  simp (disch := rfl) only [field, BitVec.extractLsb'_append_extractLsb'_eq_extractLsb']
  exact BitVec.extractLsb'_eq_self

/-- Format EXT-SLL (R105). -/
theorem encodeSll_fields (hextend : field w 27 5 = 0b11110#5) (hmajor : field w 11 5 = 0b00110#5)
    (hfun : field w 0 2 = 0b00#2) (hfa : field w 22 5 = fa) (hb : field w 21 1 = b)
    (hfb : field w 16 5 = fb) (hrx : field w 8 3 = rx) (hry : field w 5 3 = ry)
    (hsel : field w 2 3 = sel) : encodeSll fa b fb rx ry sel = w := by
  rw [encodeSll, ← hextend, ← hmajor, ← hfun]
  subst hfa hb hfb hrx hry hsel
  simp (disch := rfl) only [field, BitVec.extractLsb'_append_extractLsb'_eq_extractLsb']
  exact BitVec.extractLsb'_eq_self

/-- Format EXT-SRL (R106). -/
theorem encodeSrl_fields (hextend : field w 27 5 = 0b11110#5) (hmajor : field w 11 5 = 0b00110#5)
    (hfun : field w 0 2 = 0b10#2) (hzero5 : field w 22 5 = 0#5) (hzero2 : field w 19 2 = 0#2)
    (hb : field w 21 1 = b) (hrb : field w 16 3 = rb) (hrx : field w 8 3 = rx)
    (hry : field w 5 3 = ry) (hsel : field w 2 3 = sel) : encodeSrl b rb rx ry sel = w := by
  rw [encodeSrl, ← hextend, ← hmajor, ← hfun, ← hzero5, ← hzero2]
  subst hb hrb hrx hry hsel
  simp (disch := rfl) only [field, BitVec.extractLsb'_append_extractLsb'_eq_extractLsb']
  exact BitVec.extractLsb'_eq_self

end

/-! ## What decodes is the encoding of what it decodes to -/

section
variable {w : Word} {i : Instr}

/-- Major LI (R101). -/
theorem encode_of_decodeLi (hextend : field w 27 5 = 0b11110#5) (hmajor : field w 11 5 = 0b01101#5)
    (h : decodeLi w = .ok i) : encode i = w := by
  unfold decodeLi at h
  dsimp only at h
  repeat' split at h
  all_goals cases h
  all_goals exact encodeI16_fields hextend hmajor ‹_›

/-- Major LWSP: the five GP-relative loads (R101), then LL, LWL and LWR (R103). -/
theorem encode_of_decodeLwsp (hextend : field w 27 5 = 0b11110#5)
    (hmajor : field w 11 5 = 0b10010#5) (h : decodeLwsp w = .ok i) : encode i = w := by
  unfold decodeLwsp at h
  dsimp only at h
  repeat' split at h
  all_goals cases h
  iterate 5 exact encodeI16_fields hextend hmajor ‹_›
  all_goals
    obtain ⟨hzero, hsub⟩ := ‹_ ∧ _›
    exact encodeI9Rb_fields hextend hmajor ‹_› hzero hsub

/-- Major SWSP: the three GP-relative stores (R101), PREF and CACHE (R102), then SC, SWL and SWR
(R103). -/
theorem encode_of_decodeSwsp (hextend : field w 27 5 = 0b11110#5)
    (hmajor : field w 11 5 = 0b11010#5) (h : decodeSwsp w = .ok i) : encode i = w := by
  unfold decodeSwsp at h
  dsimp only at h
  repeat' split at h
  all_goals cases h
  iterate 3 exact encodeI16_fields hextend hmajor ‹_›
  iterate 2 exact encodeI9Op_fields hextend hmajor ‹_› ‹_›
  all_goals
    obtain ⟨hzero, hsub⟩ := ‹_ ∧ _›
    exact encodeI9Rb_fields hextend hmajor ‹_› hzero hsub

/-- The forms without operands, EHB and PAUSE (R105). -/
theorem encodeSll_wideFields {fa : BitVec 5} {sel : BitVec 3} (hextend : field w 27 5 = 0b11110#5)
    (hmajor : field w 11 5 = 0b00110#5) (hfun : field w 0 2 = 0b00#2) (hsel : field w 2 3 = sel)
    (hhigh : field w 16 11 = fa ++ 0#1 ++ 0#5) (hregs : field w 5 6 = 0#6) :
    encodeSll fa 0#1 0#5 0#3 0#3 sel = w := by
  obtain ⟨hfab, hfb⟩ := field_append (m := 6) (n := 5) hhigh
  obtain ⟨hfa, hb⟩ := field_append (m := 5) (n := 1) hfab
  obtain ⟨hrx, hry⟩ := field_append (m := 3) (x := 0#3) (y := 0#3) hregs
  exact encodeSll_fields hextend hmajor hfun hfa hb hfb hrx hry hsel

/-- Major SHIFT with function SLL (R105), in the order of the selectors. -/
theorem encode_of_decodeSll (hextend : field w 27 5 = 0b11110#5)
    (hmajor : field w 11 5 = 0b00110#5) (hfun : field w 0 2 = 0b00#2) (h : decodeSll w = .ok i) :
    encode i = w := by
  unfold decodeSll at h
  dsimp only at h
  repeat' split at h
  all_goals cases h
  · next hsel hreg => exact encodeSll_fields hextend hmajor hfun rfl hreg rfl rfl rfl hsel
  · next hsel hreg hrx =>
    have hb := (BitVec.eq_zero_or_eq_one _).resolve_right hreg
    exact encodeSll_fields hextend hmajor hfun rfl hb rfl hrx rfl hsel
  · next hsel hreg => exact encodeSll_fields hextend hmajor hfun rfl hreg rfl rfl rfl hsel
  · next hsel hfixed =>
    obtain ⟨hhigh, hrx⟩ := hfixed
    obtain ⟨hfa, hb⟩ := field_append (m := 5) (x := 0#5) (y := 0#1) hhigh
    exact encodeSll_fields hextend hmajor hfun hfa hb rfl hrx rfl hsel
  · next hsel hfixed => exact encodeSll_wideFields hextend hmajor hfun hsel hfixed.1 hfixed.2
  · next hsel hfixed =>
    obtain ⟨hlow, hregs⟩ := hfixed
    obtain ⟨hb, hfb⟩ := field_append (m := 1) (x := 0#1) (y := 0#5) hlow
    obtain ⟨hrx, hry⟩ := field_append (m := 3) (x := 0#3) (y := 0#3) hregs
    exact encodeSll_fields hextend hmajor hfun rfl hb hfb hrx hry hsel
  · next hsel hfixed => exact encodeSll_wideFields hextend hmajor hfun hsel hfixed.1 hfixed.2

/-- Major SHIFT with function SRL (R106): the register forms, then the `$0` forms. -/
theorem encode_of_decodeSrl (hextend : field w 27 5 = 0b11110#5)
    (hmajor : field w 11 5 = 0b00110#5) (hfun : field w 0 2 = 0b10#2) (h : decodeSrl w = .ok i) :
    encode i = w := by
  have hfixed : field w 22 5 = 0#5 ∧ field w 19 2 = 0#2 := by
    by_contra hne
    simp [decodeSrl, not_and_or.mp hne] at h
  obtain ⟨hzero5, hzero2⟩ := hfixed
  simp only [decodeSrl, hzero5, hzero2, ne_eq, not_true, or_self, if_false] at h
  by_cases hreg : field w 21 1 = 1#1
  · rw [if_pos hreg] at h
    repeat' split at h
    all_goals cases h
    iterate 2 exact encodeSrl_fields hextend hmajor hfun hzero5 hzero2 hreg rfl rfl rfl ‹_›
    iterate 2 exact encodeSrl_fields hextend hmajor hfun hzero5 hzero2 hreg rfl rfl ‹_› ‹_›
  · have hb := (BitVec.eq_zero_or_eq_one _).resolve_right hreg
    have hrb : field w 16 3 = 0#3 := by
      by_contra hne
      simp [hreg, hne] at h
    simp only [hreg, hrb, not_true, if_false] at h
    repeat' split at h
    all_goals cases h
    iterate 2 exact encodeSrl_fields hextend hmajor hfun hzero5 hzero2 hb hrb rfl rfl ‹_›
    iterate 2 exact encodeSrl_fields hextend hmajor hfun hzero5 hzero2 hb hrb rfl ‹_› ‹_›

/-- Major I8 with MOVR32 and CP0 (R104): the moves, then the bit families with and without a
register. -/
theorem encode_of_decodeCp0 (hextend : field w 27 5 = 0b11110#5)
    (hmajor : field w 11 5 = 0b01100#5) (h : decodeCp0 w = .ok i) : encode i = w := by
  have hfixed : field w 8 3 = 7#3 ∧ field w 24 3 = 0#3 := by
    by_contra hne
    simp [decodeCp0, not_and_or.mp hne] at h
  obtain ⟨hmovr, hzero⟩ := hfixed
  simp only [decodeCp0, hmovr, hzero, ne_eq, not_true, or_self, if_false] at h
  repeat' split at h
  all_goals cases h
  iterate 2 exact encodeCp0_fields hextend hmajor hmovr hzero ‹_› rfl rfl rfl
  iterate 6
    obtain ⟨hsel, hr32⟩ := ‹_ ∧ _›
    exact encodeCp0_fields hextend hmajor hmovr hzero ‹_› hsel rfl hr32
  all_goals
    obtain ⟨hsel, hr32⟩ := ‹_ ∧ _›
    exact encodeCp0_fields hextend hmajor hmovr hzero ‹_› hsel (not_not.mp ‹_›) hr32

/-- A word that decodes is the encoding of what it decodes to, by the major opcode (R111). -/
theorem encode_of_decodeWord (h : decodeWord w = .ok i) : encode i = w := by
  have hextend : field w 27 5 = 0b11110#5 := by
    by_contra hne
    simp [decodeWord, hne] at h
  simp only [decodeWord, hextend, ne_eq, not_true, if_false] at h
  repeat' split at h
  · cases h
    exact encodeI16_fields hextend ‹_› ‹_›
  · cases h
  · exact encode_of_decodeLi hextend ‹_› h
  · exact encode_of_decodeLwsp hextend ‹_› h
  · exact encode_of_decodeSwsp hextend ‹_› h
  · exact encode_of_decodeSll hextend ‹_› ‹_› h
  · exact encode_of_decodeSrl hextend ‹_› ‹_› h
  · cases h
  · exact encode_of_decodeCp0 hextend ‹_› h
  · cases h

/-- The decoder and the encoder are one relation between words and instructions. -/
theorem decodeWord_iff : decodeWord w = .ok i ↔ encode i = w :=
  ⟨encode_of_decodeWord, fun h => h ▸ decodeWord_encode i⟩

end

/-- Settles O3, by the major opcode of the word and then its selector. -/
theorem decodedWordIsItsEncoding : Obligations.DecodedWordIsItsEncoding := fun _ _ =>
  encode_of_decodeWord

/-! ## The rows of R112 -/

/-- The word of an instruction lies in the row of the instruction, by format and mask. -/
theorem rowOf_selects_encode (i : Instr) : (rowOf i).selects (encode i) := by
  cases i with
  | addiuGp | lui | ori | andi | xori | lw | lh | lb | lhu | lbu | sw | sh | sb =>
    exact Laws.encodeI16_mask ..
  | pref | cache => exact Laws.encodeI9Op_mask ..
  | ll | lwl | lwr | sc | swl | swr => exact Laws.encodeI9Rb_mask ..
  | mfc0 | mtc0 => exact Laws.encodeCp0_maskMove ..
  | diRy | dmtRy | dvpeRy | eiRy | emtRy | evpeRy => exact Laws.encodeCp0_maskBit ..
  | di | dmt | dvpe | ei | emt | evpe => exact Laws.encodeCp0_maskPlain ..
  | ins | ext => exact Laws.encodeSll_maskField ..
  | insZero => exact Laws.encodeSll_maskZero ..
  | rdhwr => exact Laws.encodeSll_maskHwr ..
  | sync => exact Laws.encodeSll_maskSync ..
  | ehb | pause => exact Laws.encodeSll_maskPlain ..
  | movz | movn => exact Laws.encodeSrl_maskReg ..
  | movzZero | movnZero => exact Laws.encodeSrl_maskZero ..
  | movtz | movtn => exact Laws.encodeSrl_maskRegT ..
  | movtzZero | movtnZero => exact Laws.encodeSrl_maskZeroT ..

/-- A word of a row holds the bits of the row in every field that the mask of the row covers. -/
theorem field_of_selects {bits mask w : Word} (h : OpcodeRow.selects ⟨bits, mask⟩ w) {lo len : Nat}
    (hmask : mask.extractLsb' lo len = BitVec.allOnes len) :
    field w lo len = bits.extractLsb' lo len :=
  calc field w lo len
    _ = w.extractLsb' lo len &&& mask.extractLsb' lo len := by rw [hmask, BitVec.and_allOnes, field]
    _ = (w &&& mask).extractLsb' lo len := BitVec.extractLsb'_and.symm
    _ = bits.extractLsb' lo len := congrArg (BitVec.extractLsb' lo len) h

/-- A word of a row decodes, and to the form of that row: the mask covers every field that the
decoder tests on the way there. -/
theorem decodeWord_of_selects {w : Word} (j : Instr) (h : (rowOf j).selects w) :
    ∃ i, decodeWord w = .ok i ∧ rowOf i = rowOf j := by
  cases j with
  | addiuGp =>
    simp [decodeWord, field_of_selects h]
    rfl
  | lui | ori | andi | xori =>
    simp [decodeWord, decodeLi, field_of_selects h]
    rfl
  | lw | lh | lb | lhu | lbu | ll | lwl | lwr =>
    simp [decodeWord, decodeLwsp, field_of_selects h]
    rfl
  | sw | sh | sb | pref | cache | sc | swl | swr =>
    simp [decodeWord, decodeSwsp, field_of_selects h]
    rfl
  | insZero | ins | ext | rdhwr | sync =>
    simp [decodeWord, decodeSll, field_of_selects h]
    rfl
  | ehb | pause => simp [decodeWord, decodeSll, field_of_selects h]
  | movz | movzZero | movn | movnZero | movtz | movtzZero | movtn | movtnZero =>
    simp [decodeWord, decodeSrl, field_of_selects h]
    rfl
  | mfc0 | mtc0 | diRy | dmtRy | dvpeRy | eiRy | emtRy | evpeRy =>
    simp [decodeWord, decodeCp0, field_of_selects h]
    rfl
  | di | dmt | dvpe | ei | emt | evpe => simp [decodeWord, decodeCp0, field_of_selects h]

/-- Settles O4: a word that decodes is an encoding, so it lies in its row; a word of a row decodes to
the form of that row, so two rows that share a word are one. -/
theorem rowsSelectTheirForms : Obligations.RowsSelectTheirForms := by
  refine ⟨fun w i hi => ?_, fun w j => decodeWord_of_selects j, fun w i j hi hj => ?_⟩
  · exact encode_of_decodeWord hi ▸ rowOf_selects_encode i
  · obtain ⟨k, hk, hki⟩ := decodeWord_of_selects i hi
    obtain ⟨l, hl, hlj⟩ := decodeWord_of_selects j hj
    have hkl : k = l := Except.ok.inj (hk.symm.trans hl)
    rw [← hki, hkl, hlj]

/-! ## The words written out -/

/-- Settles O1: each word is the encoding of its instruction. -/
theorem writtenWordsDecode : Obligations.WrittenWordsDecode := by
  refine ⟨?_, ?_, ?_, ?_, ?_, ?_, ?_, ?_, ?_, ?_, ?_⟩ <;> exact decodeWord_iff.mpr rfl

end Sys2Proof
end

section
/-! The family AluImmediate (40_alu_immediate.md): the value and the frame of the five immediate
forms, and the two-instruction constant of R145. -/

namespace Sys2Proof.Machine

/-! ## The destination register -/

/-- What an instruction leaves whose one effect is a write of a translated register. -/
theorem writesRegister_advance_writeX (s : State) (f : RegField) (v : Word) :
    WritesRegister s (advance (writeX s f v)) (xLat s.cfg f) v where
  pc := rfl
  value := holds_advance_writeX s f v
  others _ hr := readGpr_writeX_other s f v hr
  memory _ := rfl
  rest := rfl

theorem WritesRegister.cfg_eq {s t : State} {d : RegNum} {v : Word} (h : WritesRegister s t d v) :
    t.cfg = s.cfg := by
  rw [h.rest]

/-- A value computed from a register that holds `v`, and written back to it, is the one computed
from `v`. Register 0 need not be set apart: it discards both writes (R21). -/
theorem Holds.compute {t u : State} {d : RegNum} {v : Word} (g : Word → Word) (ht : Holds t d v)
    (hu : Holds u d (g (readGpr t d))) : Holds u d (g v) := by
  by_cases hd : d = 0
  · simpa [Holds, hd] using hu
  · have hread : readGpr t d = v := by simpa [Holds, hd] using ht
    exact hread ▸ hu

/-! ## The two halves of a word -/

/-- The halves of a word, extended to its width, meet in no bit. -/
theorem append_eq_shiftLeft_or (hi lo : BitVec 16) :
    hi ++ lo = hi.zeroExtend 32 <<< 16 ||| lo.zeroExtend 32 :=
  (BitVec.append_def hi lo).trans (by rw [BitVec.shiftLeftZeroExtend_eq, BitVec.setWidth'_eq])

theorem append_zero_eq_shiftLeft (hi : BitVec 16) : hi ++ 0#16 = hi.zeroExtend 32 <<< 16 :=
  (append_eq_shiftLeft_or hi 0#16).trans BitVec.or_zero

/-! ## The statements -/

/-- Settles O17: each form is one write of its destination. The model's LUI appends the lower half
of zeros, where the statement shifts. -/
theorem aluImmediateResults : Obligations.AluImmediateResults := by
  intro s rx imm
  have writes (v : Word) := writesRegister_advance_writeX s rx v
  refine ⟨⟨_, rfl, writes _⟩, ⟨_, rfl, writes _⟩, ⟨_, rfl, ?_⟩, ⟨_, rfl, writes _⟩,
    ⟨_, rfl, writes _⟩⟩
  exact append_zero_eq_shiftLeft imm ▸ writes (imm ++ 0#16)

/-- Settles O18: the LUI and the ORI of O17 one after the other, ORI reading what LUI wrote. -/
theorem luiOriBuildsConstant : Obligations.LuiOriBuildsConstant := by
  intro s rx hi lo
  obtain ⟨-, -, ⟨t, hlui, ht⟩, -, -⟩ := aluImmediateResults s rx hi
  obtain ⟨-, -, -, ⟨u, hori, hu⟩, -⟩ := aluImmediateResults t rx lo
  rw [ht.cfg_eq] at hu
  have hvalue : Holds u (xLat s.cfg rx) (hi ++ lo) :=
    append_eq_shiftLeft_or hi lo ▸ ht.value.compute (· ||| lo.zeroExtend 32) hu.value
  have hpc : u.pc = s.pc + 8#32 := by rw [hu.pc, ht.pc, BitVec.add_assoc]; rfl
  exact ⟨t, u, hlui, hori, hvalue, hpc, fun r hr => (hu.others r hr).trans (ht.others r hr),
    fun q => (hu.memory q).trans (ht.memory q), by rw [hu.rest, ht.rest]⟩

end Sys2Proof.Machine
end

section
/-! The family Cache, continued: where CACHE and PREF do not complete (R150 to R153, R157). -/

namespace Sys2Proof.Machine

/-! ## The effect of a CACHE operation -/

/-- Index Store Tag is the operation code of 8 to 11 (R152). -/
theorem cacheCode_storeTag :
    ∀ op : BitVec 5, 8 ≤ op.toNat → op.toNat ≤ 11 → cacheCode op = 2#3 := by
  decide

/-- The two tag operations are those from 4 to 11 (R152). -/
theorem cacheCode_tag_iff : ∀ op : BitVec 5,
    (cacheCode op = 1#3 ∨ cacheCode op = 2#3) ↔ (4 ≤ op.toNat ∧ op.toNat ≤ 11) := by
  decide

/-- The parameter gives the effect, but for a Cache Error of a tag operation (R150). -/
theorem cacheEffect_eq {cfg : Config} {op : BitVec 5}
    (h : cfg.cacheOp[op.toFin] = .cacheError → ¬ (4 ≤ op.toNat ∧ op.toNat ≤ 11)) :
    cacheEffect cfg op = cfg.cacheOp[op.toFin] := by
  unfold cacheEffect
  split
  case h_1 he =>
    obtain ⟨hload, hstore⟩ := not_or.mp (mt (cacheCode_tag_iff op).mp (h he))
    rw [if_neg hload, if_neg hstore, he]
  all_goals
    rename_i he
    exact he.symm

/-- Index Store Tag is refused also where the parameter speaks of a Cache Error (R150, R151). -/
theorem cacheEffect_refuse {cfg : Config} {op : BitVec 5}
    (h : cfg.cacheOp[op.toFin] = .refuse ∨
      (cfg.cacheOp[op.toFin] = .cacheError ∧ 8 ≤ op.toNat ∧ op.toNat ≤ 11)) :
    cacheEffect cfg op = .refuse := by
  obtain h | ⟨h, hlow, hhigh⟩ := h
  · simp only [cacheEffect, h]
  · simp [cacheEffect, h, cacheCode_storeTag op hlow hhigh]

/-- No effect becomes `absent` or `notImplemented` that the parameter does not give so. -/
theorem cacheEffect_asked {cfg : Config} {op : BitVec 5} (habsent : cfg.cacheOp[op.toFin] ≠ .absent)
    (hnot : cfg.cacheOp[op.toFin] ≠ .notImplemented) :
    ¬ (cacheEffect cfg op = .absent ∨ cacheEffect cfg op = .notImplemented) := by
  unfold cacheEffect
  split
  case h_1 =>
    split
    · simp
    · split <;> simp
  case h_2 he => exact absurd he habsent
  case h_4 he => exact absurd he hnot
  all_goals simp

/-! ## The operation -/

/-- Where the parameter is absent, or the combination not implemented, no use is excluded (R153). -/
theorem cacheOperation_unasked {s : State} {op : BitVec 5} {a : Access}
    (h : cacheEffect s.cfg op = .absent ∨ cacheEffect s.cfg op = .notImplemented) :
    cacheOperation s op a = cacheFinish s a (cacheEffect s.cfg op) :=
  if_pos h

/-- A use that R153 excludes ends so whatever effect the parameter gives. -/
theorem cacheOperation_excluded {s : State} {op : BitVec 5} {a : Access} {x : Stop}
    (h : ¬ (cacheEffect s.cfg op = .absent ∨ cacheEffect s.cfg op = .notImplemented))
    (huse : checkCacheUse s op a = .error x) : cacheOperation s op a = stopOutcome x := by
  simp only [cacheOperation, if_neg h, huse]

/-- An address operation on an uncacheable address is UNDEFINED (R153). -/
theorem checkCacheUse_uncached {s : State} {op : BitVec 5} {a : Access}
    (haddress : 16 ≤ op.toNat) (huncached : a.cca.cached = false) :
    checkCacheUse s op a = undefinedUse .cacheUncached := by
  simp [checkCacheUse, (addressOp_iff op).mpr haddress, huncached]

/-- A use that may invalidate the line of the CACHE itself is UNPREDICTABLE (R153). -/
theorem checkCacheUse_ownLine {s : State} {op : BitVec 5} {a : Access}
    (hcached : 16 ≤ op.toNat → a.cca.cached = true) (hown : mayHitOwnLine s op a = true) :
    checkCacheUse s op a = unpredictable .cacheOwnLine := by
  have hcacheable : ¬ (addressOp op && !a.cca.cached) = true := by
    simpa using fun h => hcached ((addressOp_iff op).mp h)
  simp only [checkCacheUse, if_neg hcacheable, if_pos hown]

/-- A use that R153 excludes raises no exception. -/
theorem checkCacheUse_ne_raise {s : State} {op : BitVec 5} {a : Access} {e : Trap} :
    checkCacheUse s op a ≠ raise e := by
  unfold checkCacheUse
  split
  · simp [undefinedUse, raise]
  · split <;> simp [unpredictable, raise]

theorem cacheFinish_cacheError {s : State} {a : Access} {e : CacheEffect}
    (h : cacheFinish s a e = .fault (.trap .cacheError)) : e = .cacheError := by
  cases e with
  | cacheError => rfl
  | _ => cases h

/-- A Cache Error comes from the effect alone. -/
theorem cacheOperation_cacheError {s : State} {op : BitVec 5} {a : Access}
    (h : cacheOperation s op a = .fault (.trap .cacheError)) : cacheEffect s.cfg op = .cacheError := by
  simp only [cacheOperation] at h
  split at h
  · exact cacheFinish_cacheError h
  · split at h
    case h_1 x huse =>
      cases x with
      | fault =>
        cases h
        exact absurd huse checkCacheUse_ne_raise
      | refused => cases h
    case h_2 => exact cacheFinish_cacheError h

/-! ## The instruction -/

/-- CACHE of an address that does not translate raises what the translation raises (R150). -/
theorem execCache_untranslated {s : State} {op : BitVec 5} {imm : BitVec 9} {rx : RegField}
    {e : Trap} (hsure : cop0Sure s) (htrans : translate s .cacheop (baseAddr s rx imm) = .error e) :
    execCache op imm rx s = .fault (.trap e) := by
  simp only [execCache, requireCop0_of_sure hsure, htrans]

/-- CACHE of an address that translates is its operation (R150). -/
theorem execCache_translated {s : State} {op : BitVec 5} {imm : BitVec 9} {rx : RegField}
    {a : Access} (hsure : cop0Sure s) (htrans : translate s .cacheop (baseAddr s rx imm) = .ok a) :
    execCache op imm rx s = cacheOperation s op a := by
  simp only [execCache, requireCop0_of_sure hsure, htrans]

/-- No translation raises a Cache Error (R269). -/
theorem translate_ne_cacheError {s : State} {k : AccessKind} {v : Word} :
    translate s k v ≠ .error .cacheError := by
  intro h
  obtain ⟨h, -⟩ | ⟨-, h | h | ⟨h, -⟩⟩ := translate_error h <;> cases h

/-- Index Load Tag and Index Store Tag raise no Cache Error, wherever they end (R150). -/
theorem execCache_tag_ne_cacheError {s : State} {op : BitVec 5} {imm : BitVec 9} {rx : RegField}
    (hsure : cop0Sure s) (htag : 4 ≤ op.toNat ∧ op.toNat ≤ 11) :
    execCache op imm rx s ≠ .fault (.trap .cacheError) := by
  intro h
  cases htrans : translate s .cacheop (baseAddr s rx imm) with
  | error e =>
    rw [execCache_untranslated hsure htrans] at h
    cases h
    exact translate_ne_cacheError htrans
  | ok a =>
    rw [execCache_translated hsure htrans] at h
    exact cacheEffect_tag ((cacheCode_tag_iff op).mpr htag) (cacheOperation_cacheError h)

/-! ## The line of the CACHE itself -/

/-- The bytes of the instruction at the pc are those whose fetch translates. -/
theorem mem_ownBytes {s : State} {k : Nat} {own : Access} (hk : k < 4)
    (hfetch : translate s .fetch (s.pc + BitVec.ofNat 32 k) = .ok own) :
    ((s.pc + BitVec.ofNat 32 k).toNat, own.pAddr) ∈ ownBytes s :=
  List.mem_filterMap.mpr ⟨k, List.mem_range.mpr hk, by simp only [hfetch]⟩

/-- An address lies in its own line, whatever the geometry. -/
theorem any_lineOf_eq {g : CacheGeometry} {p : Nat} {bytes : List (Nat × Nat)} {own : Nat × Nat}
    (hmem : own ∈ bytes) (hown : own.2 = p) :
    (bytes.any fun b => decide (lineOf g p = lineOf g b.2)) = true :=
  List.any_eq_true.mpr ⟨own, hmem, decide_eq_true (hown ▸ rfl)⟩

/-- An invalidation by address of a byte of the CACHE itself may hit its line (R153). -/
theorem mayHitOwnLine_ownByte {s : State} {op : BitVec 5} {a : Access} {own : Nat × Nat}
    (hinvalidate : invalidateOp op = true) (haddress : addressOp op = true)
    (hmem : own ∈ ownBytes s) (hown : own.2 = a.pAddr) : mayHitOwnLine s op a = true := by
  cases hg : cacheGeometry s.cfg op <;>
    simp only [mayHitOwnLine, hinvalidate, haddress, hg, any_lineOf_eq hmem hown, if_true,
      Bool.and_self, Bool.or_true]

/-- Every invalidation of the instruction cache may hit the line of the CACHE, where the platform
supplies no geometry of that cache (R153, D16). -/
theorem mayHitOwnLine_instructionCache {s : State} {op : BitVec 5} (a : Access)
    (hinvalidate : invalidateOp op = true) (hselect : cacheSelect op = 0#2)
    (hg : s.cfg.iGeometry = none) : mayHitOwnLine s op a = true := by
  have hg' : cacheGeometry s.cfg op = none := by simp [cacheGeometry, hselect, hg]
  simp [mayHitOwnLine, hinvalidate, hg', hselect]

/-- The operations by address that invalidate (R152). -/
theorem addressOp_invalidate : ∀ op ∈ [16#5, 17#5, 18#5, 19#5, 21#5, 22#5, 23#5],
    invalidateOp op = true ∧ addressOp op = true := by
  decide

/-- The operations that invalidate in the instruction cache (R152). -/
theorem instructionCache_invalidate : ∀ op : BitVec 5, op = 0#5 ∨ op = 16#5 →
    invalidateOp op = true ∧ cacheSelect op = 0#2 := by
  decide

/-! ## The statements -/

/-- Settles O57: the translation, then the effect of the parameter, then the uses R153 excludes, in
the order in which the operation asks them; where it asks no more, the effect is the outcome. -/
theorem cacheOutcomes : Obligations.CacheOutcomes := by
  intro s op imm rx hsure v effect tagOp
  refine ⟨fun e htrans => execCache_untranslated hsure htrans,
    fun htag => execCache_tag_ne_cacheError hsure htag, fun a htrans => ?_⟩
  have hop : exec (.cache op imm rx) s = cacheOperation s op a := execCache_translated hsure htrans
  have heffect (h : effect = .cacheError → ¬ tagOp) : cacheEffect s.cfg op = effect :=
    cacheEffect_eq h
  have hunasked (h : effect = .absent ∨ effect = .notImplemented) :
      exec (.cache op imm rx) s = cacheFinish s a effect := by
    have he : cacheEffect s.cfg op = effect := heffect (by rcases h with h | h <;> simp [h])
    rw [hop, cacheOperation_unasked (he ▸ h), he]
  refine ⟨fun h => ?absent, fun h => ?notImplemented, fun habsent hnot =>
      ⟨fun haddress huncached => ?uncached, fun hcached =>
        ⟨fun hown => ?ownLine, fun hown => ⟨fun h => ?refuse, fun h => ?busError,
          fun h htag => ?cacheError⟩⟩⟩,
    fun hinvalidate hbyte => ?ownByte, fun hinvalidate hg => ?instructionCache⟩
  case absent => rw [hunasked (.inl h), h]; rfl
  case notImplemented => rw [hunasked (.inr h), h]; rfl
  case uncached =>
    rw [hop, cacheOperation_excluded (cacheEffect_asked habsent hnot)
      (checkCacheUse_uncached haddress huncached)]
    rfl
  case ownLine =>
    rw [hop, cacheOperation_excluded (cacheEffect_asked habsent hnot)
      (checkCacheUse_ownLine hcached hown)]
    rfl
  case refuse =>
    exact (execCache_eq hsure htrans hcached hown).trans (by rw [cacheEffect_refuse h]; rfl)
  case busError =>
    refine (execCache_eq hsure htrans hcached hown).trans ?_
    rw [heffect (by simp [h]), h]
    rfl
  case cacheError =>
    refine (execCache_eq hsure htrans hcached hown).trans ?_
    rw [heffect fun _ => htag, h]
    rfl
  case ownByte =>
    obtain ⟨hinv, haddress⟩ := addressOp_invalidate op hinvalidate
    obtain ⟨k, hk, own, hfetch, hown⟩ := hbyte
    exact mayHitOwnLine_ownByte hinv haddress (mem_ownBytes hk hfetch) hown
  case instructionCache =>
    obtain ⟨hinv, hselect⟩ := instructionCache_invalidate op hinvalidate
    exact mayHitOwnLine_instructionCache a hinv hselect hg

/-- Settles O60: the hint is tested before the address is formed (R157). -/
theorem prefReservedHints : Obligations.PrefReservedHints := by
  intro s hint imm rx hrelease hhint
  exact if_pos ⟨hrelease, hhint⟩

end Sys2Proof.Machine
end

section
/-! The family Cp0System (42_cp0_system.md): the bit instructions of coprocessor 0, MFC0, and what
the tests before them raise. -/

namespace Sys2Proof.Machine

/-! ## The tests before the effect -/

theorem withCop0_of_sure {s : State} (hsure : cop0Sure s) (k : State → State) :
    withCop0 s k = .next (advance (k s)) := by
  simp only [withCop0, requireCop0_of_sure hsure]

theorem withMT_of_sure {s : State} (hsure : cop0Sure s) (hmt : s.cfg.hasMT = true)
    (k : State → State) : withMT s k = .next (advance (k s)) := by
  simp only [withMT, requireCop0_of_sure hsure, requireMT, hmt, if_true]

theorem withMT_absent {s : State} (hsure : cop0Sure s) (hmt : s.cfg.hasMT = false)
    (k : State → State) : withMT s k = .fault (.trap .reservedInstruction) := by
  simp only [withMT, requireCop0_of_sure hsure, requireMT, hmt, Bool.false_eq_true, if_false]
  rfl

theorem requireCop0_of_denied {s : State} (h : cop0Denied s) :
    requireCop0 s = raise (.coprocessorUnusable 0) := by
  simp only [requireCop0, cop0Enabled_of_denied h, Bool.false_eq_true, if_false]

theorem withCop0_denied {s : State} (h : cop0Denied s) (k : State → State) :
    withCop0 s k = .fault (.trap (.coprocessorUnusable 0)) := by
  rw [withCop0, requireCop0_of_denied h]
  rfl

theorem withMT_denied {s : State} (h : cop0Denied s) (k : State → State) :
    withMT s k = .fault (.trap (.coprocessorUnusable 0)) := by
  rw [withMT, requireCop0_of_denied h]
  rfl

/-- Settles O43: each of the fifteen forms begins with `requireCop0`, alone or inside `withCop0` and
`withMT`, and looks at nothing else when it raises. -/
theorem coprocessorUnusable : Obligations.CoprocessorUnusable := by
  intro i s hi hd
  cases i with
  | di | diRy | ei | eiRy => exact withCop0_denied hd _
  | dmt | dmtRy | emt | emtRy | dvpe | dvpeRy | evpe | evpeRy => exact withMT_denied hd _
  | cache | mfc0 | mtc0 =>
    simp only [exec, execCache, execMfc0, execMtc0, requireCop0_of_denied hd]
    rfl
  | _ => cases hi

/-- Settles O44: the eight forms are those built with `withMT`, whose second test fails. -/
theorem reservedWithoutMt : Obligations.ReservedWithoutMt := by
  intro i s hi hsure hmt
  cases i with
  | dmt | dmtRy | emt | emtRy | dvpe | dvpeRy | evpe | evpeRy => exact withMT_absent hsure hmt _
  | _ => cases hi

/-! ## The change of one bit -/

theorem getLsbD_withBit (w : Word) (i : Nat) (v : Bool) {k : Nat} (hk : k < 32) :
    (w.withBit i v).getLsbD k = if k = i then v else w.getLsbD k := by
  have hone : (1#32 <<< i).getLsbD k = decide (k = i) := by
    rw [← BitVec.twoPow_eq, BitVec.getLsbD_twoPow, Bool.eq_iff_iff]
    simp only [Bool.and_eq_true, decide_eq_true_eq]
    omega
  cases v
  · simp only [Word.withBit, Bool.false_eq_true, if_false, BitVec.getLsbD_and, BitVec.getLsbD_not,
      hone, hk]
    split <;> simp [*]
  · simp only [Word.withBit, if_true, BitVec.getLsbD_or, hone]
    split <;> simp [*]

/-- `u` is `s` but for the general registers and the number of draws: what the copy of an `ry` form
may leave. -/
def SameButGpr (s u : State) : Prop := u = { s with gpr := u.gpr, draws := u.draws }

theorem SameButGpr.refl (s : State) : SameButGpr s s := rfl

theorem readCp0_changeField (s : State) (f : HazardField) (v : Bool) (q : Cp0Reg) :
    readCp0 (changeField s f v) q =
      if q = fieldReg f then (readCp0 s (fieldReg f)).withBit (fieldPos f) v else readCp0 s q :=
  readCp0_writeCp0 s q (fieldReg f) _

/-- A changed field of a state that differs from `s` in general registers and draws (R172). -/
theorem SameButGpr.changesBit_changeField {s u : State} (hu : SameButGpr s u) (f : HazardField)
    (v : Bool) : ChangesBit s (advance (changeField u f v)) (fieldReg f) (fieldPos f) v f := by
  rw [hu]
  refine ⟨rfl, fun j hj => ?bits, fun q hq => ?others, fun h => mem_addHazard, fun _ => rfl, rfl⟩
  case bits => rw [readCp0_advance, readCp0_changeField, if_pos rfl, getLsbD_withBit _ _ _ hj]; rfl
  case others => rw [readCp0_advance, readCp0_changeField, if_neg hq]; rfl

/-- DVPE and EVPE on such a state: a VPE that is no master keeps EVP, its hazard entry is made all
the same (R164, R170, R172). -/
theorem SameButGpr.changesBit_changeEvp {s u : State} (hu : SameButGpr s u) (v : Bool) :
    ChangesBit s (advance (changeEvp u v)) mvpControlReg 0
      (if masterVpe s then v else (readCp0 s mvpControlReg).getLsbD 0) .mvpControlEVP := by
  have hmaster : masterVpe u = masterVpe s := by rw [hu]; rfl
  simp only [changeEvp, hmaster]
  split
  · exact hu.changesBit_changeField .mvpControlEVP v
  · rw [hu]
    refine ⟨rfl, fun j _ => ?bits, fun q _ => rfl, fun h => mem_addHazard, fun _ => rfl, rfl⟩
    case bits =>
      split
      · rename_i h0; rw [h0]; rfl
      · rfl

@[simp] theorem readGpr_changeEvp (s : State) (v : Bool) (r : RegNum) :
    readGpr (changeEvp s v) r = readGpr s r := by
  unfold changeEvp
  split <;> rfl

/-! ## The read of a register -/

/-- Bit `k` of the value MFC0 and the `ry` forms read is the stored one, but in Count and where a
pending hazard leaves the bit open (R173, R174). -/
theorem getLsbD_cp0Value {s : State} {r : Cp0Reg} (hcount : r ≠ countReg) {k : Nat} (hk : k < 32)
    (hte : r = vpeControlReg → k = 15 → hazardOpen s .vpeControlTE = false)
    (hevp : r = mvpControlReg → k = 0 → hazardOpen s .mvpControlEVP = false) :
    (cp0Value s r).getLsbD k = (readCp0 s r).getLsbD k := by
  have hclosed {i : Nat} {f : HazardField} (hfield : r = fieldReg f) (hpos : i = fieldPos f)
      (hopen : k = i → hazardOpen s f = false) :
      ((readCp0 s r).withBit i (seenBit s f)).getLsbD k = (readCp0 s r).getLsbD k := by
    rw [getLsbD_withBit _ _ _ hk]
    split
    · rename_i hki
      rw [seenBit, hopen hki, hki, hpos, hfield]
      rfl
    · rfl
  simp only [cp0Value, if_neg hcount]
  split
  · rename_i hr; exact hclosed (f := .vpeControlTE) hr rfl (hte hr)
  · split
    · rename_i hr; exact hclosed (f := .mvpControlEVP) hr rfl (hevp hr)
    · rfl

theorem sameButGpr_copyOld (s : State) (ry : RegField) (r : Cp0Reg) :
    SameButGpr s (copyOld s ry r) := by
  unfold SameButGpr copyOld
  rcases cp0ReadState_eq s r with h | h <;> rw [h] <;> rfl

theorem onlyGpr_copyOld (s : State) (ry : RegField) (r : Cp0Reg) :
    onlyGpr s (copyOld s ry r) (xLat s.cfg ry) (cp0Value s r) := by
  unfold copyOld
  rcases cp0ReadState_eq s r with h | h <;> rw [h]
  · exact ⟨readGpr_writeX_same s ry _, fun q hq => readGpr_writeX_other s ry _ hq⟩
  · exact ⟨readGpr_writeX_same (drawn s) ry _, fun q hq => readGpr_writeX_other (drawn s) ry _ hq⟩

theorem onlyGpr_changeEvp_copyOld (s : State) (ry : RegField) (r : Cp0Reg) (v : Bool) :
    onlyGpr s (advance (changeEvp (copyOld s ry r) v)) (xLat s.cfg ry) (cp0Value s r) := by
  simpa only [onlyGpr, Holds, readGpr_advance, readGpr_changeEvp] using onlyGpr_copyOld s ry r

/-! ## DI, EI, DMT, EMT, DVPE, EVPE -/

/-- Settles O40: a read of Status draws nothing and is the stored word. -/
theorem diEiResults : Obligations.DiEiResults := by
  intro s ry hsure
  have plain (v : Bool) := (SameButGpr.refl s).changesBit_changeField .statusIE v
  have copied (v : Bool) := (sameButGpr_copyOld s ry statusReg).changesBit_changeField .statusIE v
  have hold : onlyGpr s (copyOld s ry statusReg) (xLat s.cfg ry) (readCp0 s statusReg) :=
    onlyGpr_copyOld s ry statusReg
  exact ⟨⟨_, withCop0_of_sure hsure _, plain false, fun _ => rfl, rfl⟩,
    ⟨_, withCop0_of_sure hsure _, copied false, hold, rfl⟩,
    ⟨_, withCop0_of_sure hsure _, plain true, fun _ => rfl, rfl⟩,
    ⟨_, withCop0_of_sure hsure _, copied true, hold, rfl⟩⟩

/-- Settles O41: TE of the copy is the one bit of the old VPEControl that a hazard may leave open. -/
theorem dmtEmtResults : Obligations.DmtEmtResults := by
  intro s ry hsure hmt
  have plain (v : Bool) := (SameButGpr.refl s).changesBit_changeField .vpeControlTE v
  have copied (v : Bool) :=
    (sameButGpr_copyOld s ry vpeControlReg).changesBit_changeField .vpeControlTE v
  have hold := onlyGpr_copyOld s ry vpeControlReg
  have hbits (k : Nat) (hk : k < 32) (hopen : k = 15 → hazardOpen s .vpeControlTE = false) :
      (cp0Value s vpeControlReg).getLsbD k = (readCp0 s vpeControlReg).getLsbD k :=
    getLsbD_cp0Value (by decide) hk (fun _ => hopen) fun h => absurd h (by decide)
  exact ⟨⟨_, withMT_of_sure hsure hmt _, plain false, fun _ => rfl⟩,
    ⟨_, _, withMT_of_sure hsure hmt _, copied false, hold, hbits⟩,
    ⟨_, withMT_of_sure hsure hmt _, plain true, fun _ => rfl⟩,
    ⟨_, _, withMT_of_sure hsure hmt _, copied true, hold, hbits⟩⟩

/-- Settles O42: whether the VPE is a master is asked of the state after the copy, which does not
change it. -/
theorem dvpeEvpeResults : Obligations.DvpeEvpeResults := by
  intro s ry hsure hmt now off on
  have plain (v : Bool) := (SameButGpr.refl s).changesBit_changeEvp v
  have copied (v : Bool) := (sameButGpr_copyOld s ry mvpControlReg).changesBit_changeEvp v
  have hold (v : Bool) := onlyGpr_changeEvp_copyOld s ry mvpControlReg v
  have hbits (k : Nat) (hk : k < 32) (hopen : k = 0 → hazardOpen s .mvpControlEVP = false) :
      (cp0Value s mvpControlReg).getLsbD k = (readCp0 s mvpControlReg).getLsbD k :=
    getLsbD_cp0Value (by decide) hk (fun h => absurd h (by decide)) fun _ => hopen
  exact ⟨⟨_, withMT_of_sure hsure hmt _, plain false, readGpr_changeEvp s false⟩,
    ⟨_, _, withMT_of_sure hsure hmt _, copied false, hold false, hbits⟩,
    ⟨_, withMT_of_sure hsure hmt _, plain true, readGpr_changeEvp s true⟩,
    ⟨_, _, withMT_of_sure hsure hmt _, copied true, hold true, hbits⟩⟩

/-! ## MFC0 -/

/-- MFC0 of a register that exists, with access that is enabled for certain. -/
theorem execMfc0_eq {s : State} (ry : RegField) {r32 : BitVec 5} {sel : BitVec 3} (h : cop0Sure s)
    (hr : cp0Implemented s.cfg ⟨r32, sel⟩ = true) :
    execMfc0 ry r32 sel s = .next (advance (copyOld s ry ⟨r32, sel⟩)) := by
  simp only [execMfc0, requireCop0_of_sure h, hr, if_true]

/-- MFC0 of a register that does not exist is UNDEFINED before Release 6, and 0 from it on (R174). -/
theorem execMfc0_absent {s : State} (ry : RegField) {r32 : BitVec 5} {sel : BitVec 3}
    (h : cop0Sure s) (hr : ¬ cp0Implemented s.cfg ⟨r32, sel⟩ = true) :
    execMfc0 ry r32 sel s =
      if 6 ≤ s.cfg.archRevision then .next (advance (writeX s ry 0#32))
      else .fault (.undefined .mfc0NoRegister) := by
  simp only [execMfc0, requireCop0_of_sure h, hr, Bool.false_eq_true, if_false, ge_iff_le]

/-- Settles O45: an MFC0 that completes is the copy of the `ry` forms alone. -/
theorem mfc0Results : Obligations.Mfc0Results := by
  intro s ry r32 sel hsure
  split
  · rename_i hr
    have hsame := sameButGpr_copyOld s ry ⟨r32, sel⟩
    refine ⟨_, _, execMfc0_eq ry hsure hr, ?pc, onlyGpr_copyOld s ry ⟨r32, sel⟩, fun q => ?memory,
      ?rest, fun hcount k hk => getLsbD_cp0Value hcount hk⟩
    all_goals rw [hsame]; rfl
  · rename_i hr
    have hexec : exec (.mfc0 ry r32 sel) s = _ := execMfc0_absent ry hsure hr
    split
    · rename_i hrelease
      rw [if_pos hrelease] at hexec
      exact ⟨_, hexec, writesRegister_advance_writeX s ry 0#32⟩
    · rename_i hrelease
      rwa [if_neg hrelease] at hexec

/-! ## The hazard window of DMT -/

theorem hazardOpen_eq_false {s : State} {f : HazardField} :
    hazardOpen s f = false ↔ ∀ b, (f, b) ∈ s.hazards → b = fieldBit s f := by
  simp only [hazardOpen, List.any_eq_false, Bool.and_eq_true, decide_eq_true_eq, not_and, ne_eq,
    not_not]
  exact ⟨fun h b hb => h _ hb rfl, fun h p hp hf => hf ▸ h p.2 (hf ▸ hp)⟩

/-- Access that is enabled for certain stays so while CU0 and its pending changes do (R280). -/
theorem cop0Sure.of_same_statusCU0 {s t : State} (h : cop0Sure s)
    (hprivileged : t.privileged = s.privileged)
    (hstatus : readCp0 t statusReg = readCp0 s statusReg)
    (hpending : ∀ b, (HazardField.statusCU0, b) ∈ t.hazards → (.statusCU0, b) ∈ s.hazards) :
    cop0Sure t := by
  have hbit : fieldBit t .statusCU0 = fieldBit s .statusCU0 :=
    congrArg (fun w : Word => w.getLsbD 28) hstatus
  refine h.imp hprivileged.trans fun ⟨hcu, hopen⟩ => ⟨hbit.trans hcu, ?_⟩
  rw [hazardOpen_eq_false] at hopen ⊢
  exact fun b hb => (hopen b (hpending b hb)).trans hbit.symm

/-- MFC0 of VPEControl into a register other than register 0: what it reads, bit for bit. -/
theorem mfc0_vpeControl {s : State} {ry : RegField} (hsure : cop0Sure s) (hry : xLat s.cfg ry ≠ 0)
    (hr : cp0Implemented s.cfg vpeControlReg = true) :
    ∃ t, exec (.mfc0 ry 1#5 1#3) s = .next t ∧
      ∀ k < 32, (k = 15 → hazardOpen s .vpeControlTE = false) →
        (readGpr t (xLat s.cfg ry)).getLsbD k = (readCp0 s vpeControlReg).getLsbD k := by
  have hread := mfc0Results s ry 1#5 1#3 hsure
  rw [if_pos (show cp0Implemented s.cfg ⟨1#5, 1#3⟩ = true from hr)] at hread
  obtain ⟨t, v, hexec, -, ⟨hvalue, -⟩, -, -, hbits⟩ := hread
  rw [Holds, if_neg hry] at hvalue
  refine ⟨t, hexec, fun k hk hopen => ?_⟩
  rw [hvalue]
  exact hbits (by decide) k hk (fun _ => hopen) fun h => absurd h (by decide)

/-- Settles O47: DMT clears the stored TE and opens a hazard of TE alone, which EHB closes; the two
MFC0 are O45 in the states after DMT and after EHB. -/
theorem ehbClosesDmtWindow : Obligations.EhbClosesDmtWindow := by
  intro s ry hsure hmt hry hr
  obtain ⟨⟨t, hdmt, hchange, -⟩, -⟩ := dmtEmtResults s ry hsure hmt
  have hprivileged : t.privileged = s.privileged := by rw [hchange.rest]
  have hcfg : t.cfg = s.cfg := by rw [hchange.rest]
  have hstatus : readCp0 t statusReg = readCp0 s statusReg := hchange.others statusReg (by decide)
  have hsureDmt : cop0Sure t := hsure.of_same_statusCU0 hprivileged hstatus fun b hb =>
    ((hchange.hazards _).mp hb).resolve_right (by simp)
  have hsureEhb : cop0Sure (advance (clearHazards t)) :=
    hsure.of_same_statusCU0 hprivileged hstatus fun b hb => absurd hb List.not_mem_nil
  rw [← hcfg] at hry hr ⊢
  obtain ⟨u, hu, hubits⟩ := mfc0_vpeControl hsureDmt hry hr
  obtain ⟨w, hw, hwbits⟩ := mfc0_vpeControl hsureEhb hry hr
  refine ⟨t, u, _, w, hdmt, hu, rfl, hw, fun k hk hte => ?window, fun k hk => ?closed⟩
  case window => rw [hubits k hk fun h => absurd h hte, hchange.bits k hk, if_neg hte]
  case closed => exact (hwbits k hk fun _ => rfl).trans (hchange.bits k hk)

end Sys2Proof.Machine
end

section
/-! The family Barriers, continued: a program without coprocessor 0 access (R280, R281 a), which
reaches no register there but EPC, by PAUSE (R192). -/

namespace Sys2Proof.Machine

/-! ## What a step answers -/

/-- What a step that answers a next state did after the events of other agents (R287): polled a blocked
PAUSE, or ran the instruction it fetched. -/
theorem step_next {s t : State} (h : step s = .next t) :
    ∃ u, deliver s = .ok u ∧
      (t = pollPause u ∨ ∃ i, exec i (noteFetch u) = .next t) := by
  unfold step at h
  split at h
  · exact absurd h (stopOutcome_ne_next _ _)
  · rename_i u hu
    refine ⟨u, hu, ?_⟩
    split at h
    · cases h; exact .inl rfl
    · split at h
      · exact absurd h (stopOutcome_ne_next _ _)
      · rename_i i hi
        split at h
        · exact .inr ⟨i, h⟩
        · cases h

/-! ## What leaves coprocessor 0 to itself -/

/-- The privilege and every coprocessor 0 register but EPC are those of `s`, and no change of a field
has become pending. -/
structure KeepsCop0 (s t : State) : Prop where
  privileged : t.privileged = s.privileged
  registers : otherCp0 s t epcReg
  hazards : t.hazards ⊆ s.hazards

/-- An update of other parts of the state. -/
theorem KeepsCop0.of_eq {s t : State} (hprivileged : t.privileged = s.privileged)
    (hcp0 : t.cp0 = s.cp0) (hhazards : t.hazards = s.hazards) : KeepsCop0 s t :=
  ⟨hprivileged, fun q _ => congrArg (fun cells : Vector Word 256 => cells[cp0Index q]) hcp0,
    hhazards ▸ List.Subset.refl _⟩

theorem KeepsCop0.refl (s : State) : KeepsCop0 s s := .of_eq rfl rfl rfl

theorem KeepsCop0.trans {s u t : State} (hu : KeepsCop0 s u) (ht : KeepsCop0 u t) :
    KeepsCop0 s t :=
  ⟨ht.privileged.trans hu.privileged, fun q hq => (ht.registers q hq).trans (hu.registers q hq),
    List.Subset.trans ht.hazards hu.hazards⟩

/-- Access that is denied stays denied: EPC is not Status, and no pending value of CU0 is new (R280). -/
theorem KeepsCop0.denied {s t : State} (h : KeepsCop0 s t) (hs : cop0Denied s) : cop0Denied t := by
  obtain ⟨hprivileged, hcu, hopen⟩ := hs
  have hbit : fieldBit t .statusCU0 = fieldBit s .statusCU0 :=
    congrArg (fun w : Word => w.getLsbD 28) (h.registers statusReg (by decide))
  refine ⟨h.privileged.trans hprivileged, hbit.trans hcu, ?_⟩
  rw [hazardOpen_eq_false] at hopen ⊢
  exact fun b hb => (hopen b (h.hazards hb)).trans hbit.symm

/-! ## The operations that leave coprocessor 0 to itself -/

theorem keepsCop0_drawn (s : State) : KeepsCop0 s (drawn s) := .of_eq rfl rfl rfl

theorem keepsCop0_advance (s : State) : KeepsCop0 s (advance s) := .of_eq rfl rfl rfl

theorem keepsCop0_clearHazards (s : State) : KeepsCop0 s (clearHazards s) :=
  ⟨rfl, fun _ _ => rfl, List.nil_subset _⟩

theorem keepsCop0_cop0State (s : State) : KeepsCop0 s (cop0State s) := by
  rcases cop0State_eq s with h | h <;> rw [h]
  · exact .refl s
  · exact keepsCop0_drawn s

theorem keepsCop0_hwrState (s : State) (n : BitVec 5) : KeepsCop0 s (hwrState s n) := by
  rcases hwrState_eq s n with h | h <;> rw [h]
  · exact .refl s
  · exact keepsCop0_drawn s

theorem keepsCop0_scState (s : State) (a : Access) : KeepsCop0 s (scState s a) := by
  rw [scState_eq]
  exact .of_eq rfl rfl rfl

/-- PAUSE may write EPC and no other register (R192). -/
theorem keepsCop0_pauseEpc (s : State) : KeepsCop0 s (pauseEpc s) := by
  unfold pauseEpc
  split
  · split
    · exact ⟨rfl, fun q hq => (readCp0_writeCp0 s q epcReg _).trans (if_neg hq),
        List.Subset.refl _⟩
    · exact keepsCop0_drawn s
  · exact .refl s

theorem keepsCop0_loadBytes {s t : State} {a : Access} {bs : List Nat}
    (h : loadBytes s a bs = .ok t) : KeepsCop0 s t := by
  obtain ⟨-, rfl⟩ := loadBytes_ok h
  exact .of_eq rfl rfl rfl

theorem keepsCop0_storeBytes {s t : State} {a : Access} {cs : List (Nat × Byte)}
    (h : storeBytes s a cs = .ok t) : KeepsCop0 s t := by
  obtain ⟨-, rfl⟩ := storeBytes_ok h
  exact .of_eq rfl rfl rfl

theorem keepsCop0_prepareForStore {s t : State} {a : Access} (h : prepareForStore s a = .ok t) :
    KeepsCop0 s t := by
  obtain ⟨k, -, ⟨-, rfl⟩ | ⟨-, hz⟩⟩ := prepareForStore_ok h
  · exact keepsCop0_drawn s
  · obtain ⟨-, rfl⟩ := zeroLine_ok hz
    exact .of_eq rfl rfl rfl

theorem keepsCop0_prefetch {s t : State} {hint : BitVec 5} {a : Access}
    (h : prefetch s hint a = .ok t) : KeepsCop0 s t := by
  obtain ⟨-, rfl⟩ | ⟨-, -, rfl⟩ | ⟨-, -, u, hu, rfl⟩ := prefetch_ok h
  · exact .refl _
  · exact .of_eq rfl rfl rfl
  · exact (keepsCop0_prepareForStore hu).trans (.of_eq rfl rfl rfl)

/-! ## The instructions that do not test coprocessor 0 access first -/

theorem keepsCop0_condMove (s : State) (c : Bool) (f : RegField) (v : Word) :
    KeepsCop0 s (condMove s c f v) := by
  unfold condMove
  split
  · exact .of_eq rfl rfl rfl
  · exact keepsCop0_advance s

theorem keepsCop0_writeX (s : State) (f : RegField) (v : Word) :
    KeepsCop0 s (advance (writeX s f v)) := .of_eq rfl rfl rfl

theorem keepsCop0_guarded {s t u : State} {p : Prop} [Decidable p] {f : Fault} (hu : KeepsCop0 s u)
    (h : (if p then .fault f else .next u : Host.Outcome State Fault Refusal) = .next t) :
    KeepsCop0 s t := by
  split at h
  · cases h
  · cases h; exact hu

/-- The end of a load whose access left coprocessor 0 to itself. -/
theorem keepsCop0_loadResult {s t : State} {rx : RegField} {f : Access → Word}
    {r : Except Stop (Access × State)} (hr : ∀ a u, r = .ok (a, u) → KeepsCop0 s u)
    (h : loadResult rx f r = .next t) : KeepsCop0 s t := by
  obtain ⟨a, u, hload, rfl⟩ := loadResult_next h
  exact (hr a u hload).trans (.of_eq rfl rfl rfl)

theorem keepsCop0_storeResult {s t : State} {r : Except Stop State}
    (hr : ∀ u, r = .ok u → KeepsCop0 s u) (h : storeResult r = .next t) : KeepsCop0 s t := by
  obtain ⟨u, hstore, rfl⟩ := storeResult_next h
  exact (hr u hstore).trans (keepsCop0_advance u)

theorem keepsCop0_gpLoad {s u : State} {imm : BitVec 16} {n : Nat} {a : Access}
    (h : gpLoad s imm n = .ok (a, u)) : KeepsCop0 s u :=
  keepsCop0_loadBytes (gpLoad_ok h).2

theorem keepsCop0_unalignedLoad {s u : State} {rb : RegField} {imm : BitVec 9}
    {span : Bool → Nat → Nat → List Nat} {a : Access}
    (h : unalignedLoad s rb imm span = .ok (a, u)) : KeepsCop0 s u :=
  keepsCop0_loadBytes (unalignedLoad_ok h).2

theorem keepsCop0_gpStore {s u : State} {imm : BitVec 16} {n : Nat} {v : Word}
    (h : gpStore s imm n v = .ok u) : KeepsCop0 s u := by
  obtain ⟨a, -, hstore⟩ := gpStore_ok h
  exact keepsCop0_storeBytes hstore

theorem keepsCop0_unalignedStore {s u : State} {rb : RegField} {imm : BitVec 9}
    {cells : Bool → Nat → Nat → Word → List (Nat × Byte)} {y : Word}
    (h : unalignedStore s rb imm cells y = .ok u) : KeepsCop0 s u := by
  obtain ⟨a, -, hstore⟩ := unalignedStore_ok h
  exact keepsCop0_storeBytes hstore

theorem keepsCop0_execLl {s t : State} {rx rb : RegField} {imm : BitVec 9}
    (h : execLl rx imm rb s = .next t) : KeepsCop0 s t := by
  unfold execLl at h
  split at h
  · exact absurd h (stopOutcome_ne_next _ _)
  · split at h
    · exact absurd h (stopOutcome_ne_next _ _)
    · cases h; exact .of_eq rfl rfl rfl

theorem keepsCop0_execSc {s t : State} {rx rb : RegField} {imm : BitVec 9}
    (h : execSc rx imm rb s = .next t) : KeepsCop0 s t := by
  unfold execSc at h
  split at h
  · exact absurd h (stopOutcome_ne_next _ _)
  · rename_i a _
    split at h
    · split at h
      · exact absurd h (stopOutcome_ne_next _ _)
      · cases h; exact (keepsCop0_scState s a).trans (.of_eq rfl rfl rfl)
    · cases h; exact (keepsCop0_scState s a).trans (.of_eq rfl rfl rfl)

theorem keepsCop0_execPref {s t : State} {hint : BitVec 5} {imm : BitVec 9} {rx : RegField}
    (h : execPref hint imm rx s = .next t) : KeepsCop0 s t := by
  unfold execPref at h
  split at h
  · cases h
  · split at h
    · cases h; exact .of_eq rfl rfl rfl
    · split at h
      · exact absurd h (stopOutcome_ne_next _ _)
      · rename_i u hu
        cases h; exact (keepsCop0_prefetch hu).trans (.of_eq rfl rfl rfl)

theorem keepsCop0_execRdhwr {s t : State} {ry : RegField} {n : BitVec 5}
    (h : execRdhwr ry n s = .next t) : KeepsCop0 s t := by
  unfold execRdhwr at h
  split at h
  · cases h
  · split at h
    · cases h; exact (keepsCop0_hwrState s n).trans (.of_eq rfl rfl rfl)
    · split at h
      · cases h
        exact ((keepsCop0_cop0State s).trans (keepsCop0_hwrState _ n)).trans (.of_eq rfl rfl rfl)
      · cases h

theorem keepsCop0_execPause {s t : State} (h : execPause s = .next t) : KeepsCop0 s t := by
  unfold execPause at h
  split at h
  · cases h
  · split at h
    · cases h; exact (keepsCop0_pauseEpc s).trans (.of_eq rfl rfl rfl)
    · cases h; exact keepsCop0_advance s

/-- Only the forms that test coprocessor 0 access first change it beyond EPC (R281 a, R192). -/
theorem exec_keepsCop0 {i : Instr} (hi : needsCop0 i = false) {s t : State}
    (h : exec i s = .next t) : KeepsCop0 s t := by
  cases i with
  | addiuGp | andi | lui | ori | xori => cases h; exact keepsCop0_writeX ..
  | ext | insZero | ins => exact keepsCop0_guarded (keepsCop0_writeX ..) h
  | movnZero | movn | movtnZero | movtn | movtzZero | movtz | movzZero | movz =>
    cases h; exact keepsCop0_condMove ..
  | lb | lbu | lh | lhu | lw => exact keepsCop0_loadResult (fun _ _ => keepsCop0_gpLoad) h
  | lwl | lwr => exact keepsCop0_loadResult (fun _ _ => keepsCop0_unalignedLoad) h
  | sb | sh | sw => exact keepsCop0_storeResult (fun _ => keepsCop0_gpStore) h
  | swl | swr => exact keepsCop0_storeResult (fun _ => keepsCop0_unalignedStore) h
  | ll => exact keepsCop0_execLl h
  | sc => exact keepsCop0_execSc h
  | pref => exact keepsCop0_execPref h
  | rdhwr => exact keepsCop0_execRdhwr h
  | sync => cases h; exact .of_eq rfl rfl rfl
  | ehb => cases h; exact (keepsCop0_clearHazards s).trans (keepsCop0_advance _)
  | pause => exact keepsCop0_execPause h
  | cache | di | diRy | dmt | dmtRy | dvpe | dvpeRy | ei | eiRy | emt | emtRy | evpe | evpeRy | mfc0
  | mtc0 => cases hi

/-- With access denied the forms that test it do not complete, so no instruction changes it. -/
theorem exec_keepsCop0_of_denied {i : Instr} {s t : State} (hs : cop0Denied s)
    (h : exec i s = .next t) : KeepsCop0 s t := by
  cases hi : needsCop0 i with
  | false => exact exec_keepsCop0 hi h
  | true =>
    rw [coprocessorUnusable i s hi hs] at h
    cases h

/-! ## A step without coprocessor 0 access -/

/-- No event of another agent changes coprocessor 0 (log 2). -/
theorem keepsCop0_applyEvent {s t : State} {e : EnvEvent} (h : applyEvent s e = .ok t) :
    KeepsCop0 s t := by
  cases e with
  | store p bytes =>
    obtain ⟨-, -, rfl⟩ := eventStore_ok h
    exact .of_eq rfl rfl rfl
  | cacheOp => cases h; exact .of_eq rfl rfl rfl

theorem keepsCop0_applyEvents {s t : State} {es : List EnvEvent} (h : applyEvents s es = .ok t) :
    KeepsCop0 s t := by
  induction es generalizing s with
  | nil => cases h; exact .refl _
  | cons e es ih =>
    unfold applyEvents at h
    split at h
    · cases h
    · rename_i u hu
      exact (keepsCop0_applyEvent hu).trans (ih h)

theorem keepsCop0_deliver {s t : State} (h : deliver s = .ok t) : KeepsCop0 s t := by
  unfold deliver at h
  split at h
  · cases h; exact .refl s
  · rename_i es rest _
    exact (KeepsCop0.of_eq rfl rfl rfl : KeepsCop0 s { s with env := rest }).trans
      (keepsCop0_applyEvents h)

theorem keepsCop0_pollPause (s : State) : KeepsCop0 s (pollPause s) := by
  rcases pollPause_cases s with h | h <;> rw [h] <;> exact .of_eq rfl rfl rfl

theorem keepsCop0_noteFetch (s : State) : KeepsCop0 s (noteFetch s) := by
  unfold noteFetch
  split
  · exact .of_eq rfl rfl rfl
  · exact .refl s

theorem step_keepsCop0_of_denied {s t : State} (hs : cop0Denied s) (h : step s = .next t) :
    KeepsCop0 s t := by
  obtain ⟨u, hu, rfl | ⟨i, hi⟩⟩ := step_next h
  · exact (keepsCop0_deliver hu).trans (keepsCop0_pollPause u)
  · have hfetched : KeepsCop0 s (noteFetch u) :=
      (keepsCop0_deliver hu).trans (keepsCop0_noteFetch u)
    exact hfetched.trans (exec_keepsCop0_of_denied (hfetched.denied hs) hi)

/-- Settles O12: a step from such a state keeps coprocessor 0, and with it the denial. -/
theorem unprivilegedCannotReachCop0 : Obligations.UnprivilegedCannotReachCop0 := fun _ _ hs h =>
  have hkeeps := step_keepsCop0_of_denied hs h
  ⟨hkeeps.denied hs, hkeeps.registers⟩

end Sys2Proof.Machine
end

section
/-! The family Barriers, continued: the delay slot of a PAUSE (R193), which stops no other form and
which no step makes. -/

namespace Sys2Proof.Machine

/-! ## What a step stops with -/

theorem stopOutcome_eq_fault {e : Stop} {f : Fault} : stopOutcome e = .fault f ↔ e = .fault f := by
  cases e <;> simp [stopOutcome]

/-- An event of another agent is performed or refused (R78, R287). -/
theorem applyEvent_ne_fault {s : State} {e : EnvEvent} {f : Fault} :
    applyEvent s e ≠ .error (.fault f) := by
  intro h
  cases e with
  | cacheOp => cases h
  | store p bytes =>
    simp only [applyEvent, eventStore] at h
    split at h
    · cases h
    · split at h <;> cases h

theorem applyEvents_ne_fault {s : State} {es : List EnvEvent} {f : Fault} :
    applyEvents s es ≠ .error (.fault f) := by
  induction es generalizing s with
  | nil => intro h; cases h
  | cons e es ih =>
    intro h
    unfold applyEvents at h
    split at h
    · rename_i hx
      cases h; exact applyEvent_ne_fault hx
    · exact ih h

theorem deliver_ne_fault {s : State} {f : Fault} : deliver s ≠ .error (.fault f) := by
  unfold deliver
  split
  · intro h; cases h
  · exact applyEvents_ne_fault

theorem fetchHalf_ne_fault {s : State} {v : Word} {f : Fault} :
    fetchHalf s v ≠ .error (.fault f) := by
  intro h
  unfold fetchHalf at h
  split at h
  · cases h
  · split at h
    · cases h
    · split at h <;> cases h

theorem decodeFetched_ne_fault {s : State} {bs : List Byte} {f : Fault} :
    decodeFetched s bs ≠ .error (.fault f) := by
  intro h
  unfold decodeFetched at h
  split at h <;> cases h

/-- A fetch answers an instruction or is refused: no rule describes an exception of a fetch (R28). -/
theorem fetch_ne_fault {s : State} {f : Fault} : fetch s ≠ .error (.fault f) := by
  intro h
  unfold fetch at h
  split at h
  · cases h
  · split at h
    · rename_i hhalf
      cases h; exact fetchHalf_ne_fault hhalf
    · split at h
      · exact decodeFetched_ne_fault h
      · split at h
        · cases h
        · split at h
          · rename_i hhalf
            cases h; exact fetchHalf_ne_fault hhalf
          · exact decodeFetched_ne_fault h

/-- A step ends in a fault only in the instruction it runs, or because there is no MIPS16e2 (R2). -/
theorem step_fault {s : State} {f : Fault} (h : step s = .fault f) :
    f = .unpredictable .noMips16e2 ∨
      ∃ u i, deliver s = .ok u ∧ exec i (noteFetch u) = .fault f := by
  unfold step at h
  split at h
  · rename_i hu
    exact absurd (stopOutcome_eq_fault.mp h ▸ hu) deliver_ne_fault
  · rename_i u hu
    split at h
    · cases h
    · split at h
      · rename_i hi
        exact absurd (stopOutcome_eq_fault.mp h ▸ hi) fetch_ne_fault
      · rename_i i hi
        split at h
        · exact .inr ⟨u, i, hu, h⟩
        · cases h; exact .inl rfl

/-! ## The stops of the forms other than PAUSE -/

/-- A stop other than that of a PAUSE in a delay slot (R193). -/
inductive OtherStop : Stop → Prop where
  | raised (e : Trap) : OtherStop (.fault (.trap e))
  | unpredictable (why : Unpredictable) (h : why ≠ .pauseInDelaySlot) :
      OtherStop (.fault (.unpredictable why))
  | undefined (why : Undefined) : OtherStop (.fault (.undefined why))
  | refused (r : Refusal) : OtherStop (.refused r)

theorem not_otherStop_pauseInDelaySlot :
    ¬ OtherStop (.fault (.unpredictable .pauseInDelaySlot)) := by
  rintro (_ | ⟨_, h⟩)
  exact h rfl

theorem openAccess_error {s : State} {k : AccessKind} {n : Nat} {w b : Bool} {v : Word} {e : Stop}
    (h : openAccess s k n w b v = .error e) : OtherStop e := by
  unfold openAccess at h
  split at h
  · cases h; exact .raised _
  · split at h
    · cases h; exact .raised _
    · split at h
      · cases h; exact .raised _
      · split at h
        · cases h; exact .raised _
        · cases h

theorem checkBytes_error {s : State} {a : Access} {bs : List Nat} {e : Stop}
    (h : checkBytes s a bs = .error e) : OtherStop e := by
  unfold checkBytes at h
  split at h
  · cases h; exact .refused _
  · split at h
    · cases h; exact .unpredictable _ (by decide)
    · cases h

theorem checkCells_error {s : State} {a : Access} {cs : List (Nat × Byte)} {e : Stop}
    (h : checkCells s a cs = .error e) : OtherStop e := by
  unfold checkCells at h
  split at h
  · rename_i hc
    cases h; exact checkBytes_error hc
  · split at h
    · cases h; exact .refused _
    · cases h

theorem loadBytes_error {s : State} {a : Access} {bs : List Nat} {e : Stop}
    (h : loadBytes s a bs = .error e) : OtherStop e := by
  unfold loadBytes at h
  split at h
  · rename_i hc
    cases h; exact checkBytes_error hc
  · cases h

theorem storeBytes_error {s : State} {a : Access} {cs : List (Nat × Byte)} {e : Stop}
    (h : storeBytes s a cs = .error e) : OtherStop e := by
  unfold storeBytes at h
  split at h
  · rename_i hc
    cases h; exact checkCells_error hc
  · cases h

theorem gpLoad_error {s : State} {imm : BitVec 16} {n : Nat} {e : Stop}
    (h : gpLoad s imm n = .error e) : OtherStop e := by
  unfold gpLoad at h
  split at h
  · rename_i ha
    cases h; exact openAccess_error ha
  · split at h
    · rename_i hl
      cases h; exact loadBytes_error hl
    · cases h

theorem unalignedLoad_error {s : State} {rb : RegField} {imm : BitVec 9}
    {span : Bool → Nat → Nat → List Nat} {e : Stop}
    (h : unalignedLoad s rb imm span = .error e) : OtherStop e := by
  simp only [unalignedLoad] at h
  split at h
  · rename_i ha
    cases h; exact openAccess_error ha
  · split at h
    · rename_i hl
      cases h; exact loadBytes_error hl
    · cases h

theorem gpStore_error {s : State} {imm : BitVec 16} {n : Nat} {v : Word} {e : Stop}
    (h : gpStore s imm n v = .error e) : OtherStop e := by
  unfold gpStore at h
  split at h
  · rename_i ha
    cases h; exact openAccess_error ha
  · exact storeBytes_error h

theorem unalignedStore_error {s : State} {rb : RegField} {imm : BitVec 9}
    {cells : Bool → Nat → Nat → Word → List (Nat × Byte)} {y : Word} {e : Stop}
    (h : unalignedStore s rb imm cells y = .error e) : OtherStop e := by
  simp only [unalignedStore] at h
  split at h
  · rename_i ha
    cases h; exact openAccess_error ha
  · exact storeBytes_error h

theorem openLinked_error {s : State} {v : Word} {e : Stop} (h : openLinked s v = .error e) :
    OtherStop e := by
  unfold openLinked at h
  split at h
  · rename_i ha
    cases h; exact openAccess_error ha
  · split at h
    · cases h
    · cases h; exact .unpredictable _ (by decide)

theorem openConditional_error {s : State} {v : Word} {e : Stop}
    (h : openConditional s v = .error e) : OtherStop e := by
  unfold openConditional at h
  split at h
  · rename_i ha
    cases h; exact openAccess_error ha
  · split at h
    · cases h; exact .unpredictable _ (by decide)
    · cases h

theorem prepareForStore_error {s : State} {a : Access} {e : Stop}
    (h : prepareForStore s a = .error e) : OtherStop e := by
  unfold prepareForStore at h
  split at h
  · cases h; exact .refused _
  · split at h
    · cases h
    · unfold zeroLine at h
      split at h
      · rename_i hc
        cases h; exact checkCells_error hc
      · cases h

theorem prefetch_error {s : State} {hint : BitVec 5} {a : Access} {e : Stop}
    (h : prefetch s hint a = .error e) : OtherStop e := by
  unfold prefetch at h
  split at h
  · split at h
    · split at h
      · rename_i hp
        cases h; exact prepareForStore_error hp
      · cases h
    · cases h
  · cases h

/-- The test of coprocessor 0 access raises one exception (R280). -/
theorem requireCop0_error {s : State} {e : Stop} (h : requireCop0 s = .error e) : OtherStop e := by
  unfold requireCop0 at h
  split at h
  · cases h
  · cases h; exact .raised _

theorem requireMT_error {s : State} {e : Stop} (h : requireMT s = .error e) : OtherStop e := by
  unfold requireMT at h
  split at h
  · cases h
  · cases h; exact .raised _

theorem checkCacheUse_error {s : State} {op : BitVec 5} {a : Access} {e : Stop}
    (h : checkCacheUse s op a = .error e) : OtherStop e := by
  unfold checkCacheUse at h
  split at h
  · cases h; exact .undefined _
  · split at h
    · cases h; exact .unpredictable _ (by decide)
    · cases h

/-! ## The faults of the forms other than PAUSE -/

theorem OtherStop.fault {e : Stop} {f : Fault} (he : OtherStop e) (h : stopOutcome e = .fault f) :
    OtherStop (.fault f) := stopOutcome_eq_fault.mp h ▸ he

theorem loadResult_fault {rx : RegField} {v : Access → Word} {r : Except Stop (Access × State)}
    {f : Fault} (hr : ∀ e, r = .error e → OtherStop e) (h : loadResult rx v r = .fault f) :
    OtherStop (.fault f) := by
  match r with
  | .error e => exact (hr e rfl).fault h
  | .ok (a, u) => cases h

theorem storeResult_fault {r : Except Stop State} {f : Fault}
    (hr : ∀ e, r = .error e → OtherStop e) (h : storeResult r = .fault f) :
    OtherStop (.fault f) := by
  match r with
  | .error e => exact (hr e rfl).fault h
  | .ok u => cases h

theorem guarded_fault {p : Prop} [Decidable p] {u : State} {why : Unpredictable} {f : Fault}
    (hwhy : why ≠ .pauseInDelaySlot)
    (h : (if p then .fault (.unpredictable why) else .next u : Host.Outcome State Fault Refusal) =
      .fault f) : OtherStop (.fault f) := by
  split at h
  · cases h; exact .unpredictable why hwhy
  · cases h

theorem withCop0_fault {s : State} {k : State → State} {f : Fault} (h : withCop0 s k = .fault f) :
    OtherStop (.fault f) := by
  unfold withCop0 at h
  split at h
  · rename_i he
    exact (requireCop0_error he).fault h
  · cases h

theorem withMT_fault {s : State} {k : State → State} {f : Fault} (h : withMT s k = .fault f) :
    OtherStop (.fault f) := by
  unfold withMT at h
  split at h
  · rename_i he
    exact (requireCop0_error he).fault h
  · split at h
    · rename_i he
      exact (requireMT_error he).fault h
    · cases h

theorem execMfc0_fault {s : State} {ry : RegField} {r32 : BitVec 5} {sel : BitVec 3} {f : Fault}
    (h : execMfc0 ry r32 sel s = .fault f) : OtherStop (.fault f) := by
  unfold execMfc0 at h
  split at h
  · rename_i he
    exact (requireCop0_error he).fault h
  · split at h
    · cases h
    · split at h
      · cases h
      · cases h; exact .undefined _

theorem execMtc0_fault {s : State} {ry : RegField} {r32 : BitVec 5} {sel : BitVec 3} {f : Fault}
    (h : execMtc0 ry r32 sel s = .fault f) : OtherStop (.fault f) := by
  unfold execMtc0 at h
  split at h
  · rename_i he
    exact (requireCop0_error he).fault h
  · split at h
    · cases h
    · cases h; exact .undefined _

theorem execRdhwr_fault {s : State} {ry : RegField} {n : BitVec 5} {f : Fault}
    (h : execRdhwr ry n s = .fault f) : OtherStop (.fault f) := by
  unfold execRdhwr at h
  split at h
  · cases h; exact .raised _
  · split at h
    · cases h
    · split at h
      · cases h
      · cases h; exact .raised _

theorem execLl_fault {s : State} {rx rb : RegField} {imm : BitVec 9} {f : Fault}
    (h : execLl rx imm rb s = .fault f) : OtherStop (.fault f) := by
  unfold execLl at h
  split at h
  · rename_i he
    exact (openLinked_error he).fault h
  · split at h
    · rename_i he
      exact (checkBytes_error he).fault h
    · cases h

theorem execSc_fault {s : State} {rx rb : RegField} {imm : BitVec 9} {f : Fault}
    (h : execSc rx imm rb s = .fault f) : OtherStop (.fault f) := by
  unfold execSc at h
  split at h
  · rename_i he
    exact (openConditional_error he).fault h
  · split at h
    · split at h
      · rename_i he
        exact (checkCells_error he).fault h
      · cases h
    · cases h

theorem execPref_fault {s : State} {hint : BitVec 5} {imm : BitVec 9} {rx : RegField} {f : Fault}
    (h : execPref hint imm rx s = .fault f) : OtherStop (.fault f) := by
  unfold execPref at h
  split at h
  · cases h; exact .raised _
  · split at h
    · cases h
    · split at h
      · rename_i he
        exact (prefetch_error he).fault h
      · cases h

theorem cacheFinish_fault {s : State} {a : Access} {e : CacheEffect} {f : Fault}
    (h : cacheFinish s a e = .fault f) : OtherStop (.fault f) := by
  cases e with
  | absent | refuse | keep | loadTag => cases h
  | notImplemented => cases h; exact .undefined _
  | cacheError | busError => cases h; exact .raised _

theorem execCache_fault {s : State} {op : BitVec 5} {imm : BitVec 9} {rx : RegField} {f : Fault}
    (h : execCache op imm rx s = .fault f) : OtherStop (.fault f) := by
  unfold execCache at h
  split at h
  · rename_i he
    exact (requireCop0_error he).fault h
  · split at h
    · cases h; exact .raised _
    · simp only [cacheOperation] at h
      split at h
      · exact cacheFinish_fault h
      · split at h
        · rename_i he
          exact (checkCacheUse_error he).fault h
        · exact cacheFinish_fault h

/-- The delay slot stops no form but PAUSE (R193). -/
theorem exec_fault {i : Instr} (hi : i ≠ .pause) {s : State} {f : Fault} (h : exec i s = .fault f) :
    OtherStop (.fault f) := by
  cases i with
  | pause => exact absurd rfl hi
  | addiuGp | andi | lui | ori | xori | ehb | sync => cases h
  | movnZero | movn | movtnZero | movtn | movtzZero | movtz | movzZero | movz => cases h
  | ext | insZero | ins => exact guarded_fault (by decide) h
  | di | diRy | ei | eiRy => exact withCop0_fault h
  | dmt | dmtRy | emt | emtRy | dvpe | dvpeRy | evpe | evpeRy => exact withMT_fault h
  | mfc0 => exact execMfc0_fault h
  | mtc0 => exact execMtc0_fault h
  | rdhwr => exact execRdhwr_fault h
  | lb | lbu | lh | lhu | lw => exact loadResult_fault (fun _ => gpLoad_error) h
  | lwl | lwr => exact loadResult_fault (fun _ => unalignedLoad_error) h
  | sb | sh | sw => exact storeResult_fault (fun _ => gpStore_error) h
  | swl | swr => exact storeResult_fault (fun _ => unalignedStore_error) h
  | ll => exact execLl_fault h
  | sc => exact execSc_fault h
  | pref => exact execPref_fault h
  | cache => exact execCache_fault h

/-! ## PAUSE and the delay slot -/

theorem execPause_inDelaySlot {s : State} (h : s.inDelaySlot = true) :
    execPause s = .fault (.unpredictable .pauseInDelaySlot) := if_pos h

theorem execPause_of_noLink {s : State} (hslot : s.inDelaySlot = false) (hbit : s.llBit = false) :
    execPause s = .next (advance s) := by
  simp only [execPause, hslot, hbit, Bool.false_eq_true, if_false]

theorem execPause_of_link {s : State} (hslot : s.inDelaySlot = false) (hbit : s.llBit = true) :
    execPause s = .next (blockStream s) := by
  simp only [execPause, hslot, hbit, Bool.false_eq_true, if_false, if_true]

/-- Outside a delay slot no instruction ends as a PAUSE in one does. -/
theorem exec_ne_pauseInDelaySlot {s : State} (hslot : s.inDelaySlot = false) (i : Instr) :
    exec i s ≠ .fault (.unpredictable .pauseInDelaySlot) := by
  intro h
  by_cases hi : i = .pause
  · subst hi
    have hpause : execPause s = _ := h
    cases hbit : s.llBit with
    | false => rw [execPause_of_noLink hslot hbit] at hpause; cases hpause
    | true => rw [execPause_of_link hslot hbit] at hpause; cases hpause
  · exact not_otherStop_pauseInDelaySlot (exec_fault hi h)

/-- Neither the updates of an instruction nor its end touch the flag of a delay slot (log 20). -/
theorem exec_inDelaySlot {i : Instr} {s t : State} (h : exec i s = .next t) :
    t.inDelaySlot = s.inDelaySlot := by
  obtain ⟨u, hu, hend⟩ := exec_completes h
  have hflag : u.inDelaySlot = s.inDelaySlot :=
    (updates_keep (P := SameUnreachable s) (fun _ _ huv hs => hs.instrUpdate huv) hu
      ⟨rfl, rfl, rfl, fun _ _ => rfl⟩).inDelaySlot
  obtain rfl | ⟨-, -, rfl⟩ := hend <;> exact hflag

/-- What precedes an instruction keeps the flag of a delay slot. -/
theorem noteFetch_deliver_inDelaySlot {s u : State} (hu : deliver s = .ok u) :
    (noteFetch u).inDelaySlot = s.inDelaySlot :=
  (updates_keep (P := SameUnreachable s) (fun _ _ huv hs => hs.stepUpdate huv)
    (.tail (deliver_updates hu) (.noteFetch u)) ⟨rfl, rfl, rfl, fun _ _ => rfl⟩).inDelaySlot

/-- Settles O51: a step ends in that fault only in a PAUSE, which the flag, kept up to it, excludes. -/
theorem pauseInDelaySlot : Obligations.PauseInDelaySlot := by
  refine ⟨fun s => execPause_inDelaySlot, fun i s t => exec_inDelaySlot, fun s hslot h => ?_⟩
  obtain hnone | ⟨u, i, hu, hexec⟩ := step_fault h
  · cases hnone
  · exact exec_ne_pauseInDelaySlot ((noteFetch_deliver_inDelaySlot hu).trans hslot) i hexec

end Sys2Proof.Machine
end

section
/-! The family Barriers, continued: the results of PAUSE outside a delay slot, EHB and SYNC (R190,
R192, R195 to R197). -/

namespace Sys2Proof.Machine

/-! ## PAUSE -/

/-- EPC, where it exists, keeps its value or takes the resume address (R192, D32). -/
theorem pauseEpc_epc (s : State) :
    readCp0 (pauseEpc s) epcReg = readCp0 s epcReg ∨
      (cp0Implemented s.cfg epcReg = true ∧ readCp0 (pauseEpc s) epcReg = s.pc + 4#32) := by
  unfold pauseEpc
  split
  · rename_i himpl
    split
    · exact .inr ⟨himpl, (readCp0_writeCp0 s epcReg epcReg _).trans (if_pos rfl)⟩
    · exact .inl rfl
  · exact .inl rfl

/-- PAUSE changes no other part of the state than coprocessor 0 and the number of draws (R192). -/
theorem pauseEpc_eq (s : State) :
    pauseEpc s = { s with cp0 := (pauseEpc s).cp0, draws := (pauseEpc s).draws } := by
  unfold pauseEpc
  split
  · split <;> rfl
  · rfl

/-- Settles O50: the two cases of `LLbit`, the second with the laws of `pauseEpc`. -/
theorem pauseResult : Obligations.PauseResult := by
  refine fun s hslot => ⟨execPause_of_noLink hslot, fun hbit => ?_⟩
  have hrest := pauseEpc_eq s
  refine ⟨blockStream s, execPause_of_link hslot hbit, rfl, ?pc, (keepsCop0_pauseEpc s).registers,
    pauseEpc_epc s, ?rest⟩
  case pc => exact (congrArg State.pc hrest :)
  case rest => exact congrArg (fun u : State => { u with waiting := true }) hrest

/-! ## EHB -/

/-- Settles O49: with no pending hazard every read is of the stored value. -/
theorem ehbResult : Obligations.EhbResult := fun s =>
  ⟨advance (clearHazards s), rfl, rfl, fun _ => rfl, rfl⟩

/-! ## The barriers of SYNC -/

theorem syncBarrier_zero (cfg : Config) : syncBarrier cfg 0#5 = fullBarrier := rfl

/-- A stype that is no optional one of R197 has no row there. -/
theorem orderingBarrier_eq_none {n : BitVec 5} (hn : n ∉ [4#5, 16#5, 17#5, 18#5, 19#5]) :
    orderingBarrier n = none := by
  revert n
  decide

/-- The row of an optional stype, by its columns (R197). -/
theorem orderingBarrier_columns {n : BitVec 5} (hn : n ∈ [4#5, 16#5, 17#5, 18#5, 19#5]) :
    orderingBarrier n = some
      { olderLoads := decide (n ≠ 4#5)
        olderStores := decide (n = 4#5 ∨ n = 16#5 ∨ n = 18#5)
        youngerLoads := decide (n = 16#5 ∨ n = 17#5 ∨ n = 19#5)
        youngerStores := decide (n ≠ 19#5)
        doneLoads := false, doneStores := false } := by
  simp only [List.mem_cons, List.not_mem_nil, or_false] at hn
  rcases hn with rfl | rfl | rfl | rfl | rfl <;> rfl

/-- A stype that is neither 0 nor optional is what the parameter defines it to be (R196). -/
theorem syncBarrier_vendor {cfg : Config} {n : BitVec 5} (hzero : n ≠ 0#5)
    (hn : n ∉ [4#5, 16#5, 17#5, 18#5, 19#5]) {v : BarrierKind}
    (hv : cfg.syncVendor.find? (fun e => e.1 = n) = some (n, v)) : syncBarrier cfg n = v := by
  simp only [syncBarrier, hzero, orderingBarrier_eq_none hn, hv, if_false]

/-- A stype that nothing defines acts as stype 0 (R196). -/
theorem syncBarrier_undefined {cfg : Config} {n : BitVec 5}
    (hn : n ∉ [4#5, 16#5, 17#5, 18#5, 19#5]) (hv : n ∉ cfg.syncVendor.map (·.1)) :
    syncBarrier cfg n = fullBarrier := by
  have hfind : cfg.syncVendor.find? (fun e => e.1 = n) = none := by
    rw [List.find?_eq_none]
    intro e he hen
    exact hv (of_decide_eq_true hen ▸ List.mem_map_of_mem he)
  simp only [syncBarrier, orderingBarrier_eq_none hn, hfind, ite_self]

/-- Settles O53: the barrier by the four kinds of stypes. -/
theorem syncResult : Obligations.SyncResult := by
  refine fun s n => ⟨rfl, ?full, fun hn himpl => ?row, fun v hzero hn hv => ?vendor⟩
  case full =>
    rintro (rfl | ⟨hn, himpl⟩ | ⟨hn, hv⟩)
    · exact syncBarrier_zero s.cfg
    · rw [syncBarrier_optional s.cfg (orderingBarrier_columns hn),
        if_neg (List.contains_iff_mem.not.mpr himpl)]
      rfl
    · exact syncBarrier_undefined hn hv
  case row =>
    rw [syncBarrier_optional s.cfg (orderingBarrier_columns hn),
      if_pos (List.contains_iff_mem.mpr himpl)]
  case vendor => exact syncBarrier_vendor hzero hn hv

end Sys2Proof.Machine
end

section
/-! The family BitField (44_bitfield.md): the bits of the field mask, of an extracted and of an
inserted field, the results of EXT and INS, and the two of them in sequence (R200 to R203). -/

namespace Sys2Proof.Machine

/-! ## The bits of a field -/

/-- The mask has a one exactly in the bits `msb .. lsb`. -/
theorem getLsbD_fieldMask (lsb msb : Nat) {k : Nat} (hk : k < 32) :
    (fieldMask lsb msb).getLsbD k = decide (lsb ≤ k ∧ k ≤ msb) := by
  rw [fieldMask, BitVec.getLsbD_ofNat, Nat.testBit_mul_two_pow, Nat.testBit_two_pow_sub_one]
  by_cases hlow : lsb ≤ k
  · have hwidth : k - lsb < msb + 1 - lsb ↔ k ≤ msb := by omega
    simp [hk, hlow, hwidth]
  · simp [hlow]

/-- The extracted field stands at bit 0, with zeros above its `msbd + 1` bits (R200). -/
theorem getLsbD_extractField (x : Word) (lsb msbd : Nat) {k : Nat} (hk : k < 32) :
    (extractField x lsb msbd).getLsbD k = (decide (k ≤ msbd) && x.getLsbD (k + lsb)) := by
  simp [extractField, getLsbD_fieldMask 0 msbd hk, Bool.and_comm, Nat.add_comm]

/-- Inside the field the bits are those of `x`, moved up by `lsb`; outside it those of `y` (R202). -/
theorem getLsbD_insertField (y x : Word) (lsb msb : Nat) {k : Nat} (hk : k < 32) :
    (insertField y x lsb msb).getLsbD k =
      if lsb ≤ k ∧ k ≤ msb then x.getLsbD (k - lsb) else y.getLsbD k := by
  simp only [insertField, BitVec.getLsbD_or, BitVec.getLsbD_and, BitVec.getLsbD_not,
    BitVec.getLsbD_shiftLeft, getLsbD_fieldMask lsb msb hk]
  by_cases hfield : lsb ≤ k ∧ k ≤ msb
  · have hlow : ¬ k < lsb := Nat.not_lt.mpr hfield.left
    simp [hfield, hlow, hk]
  · simp [hfield, hk]

/-! ## EXT and INS -/

theorem execExt_unpredictable {s : State} (ry rx : RegField) {lsb msbd : BitVec 5}
    (h : 31 < lsb.toNat + msbd.toNat) :
    execExt ry rx lsb msbd s = .fault (.unpredictable .extField) := if_pos h

theorem execExt_eq {s : State} (ry rx : RegField) {lsb msbd : BitVec 5}
    (h : ¬ 31 < lsb.toNat + msbd.toNat) :
    execExt ry rx lsb msbd s =
      .next (advance (writeX s ry (extractField (readX s rx) lsb.toNat msbd.toNat))) := if_neg h

theorem execInsZero_unpredictable {s : State} (ry : RegField) {lsb msb : BitVec 5}
    (h : msb.toNat < lsb.toNat) :
    execInsZero ry lsb msb s = .fault (.unpredictable .insField) := if_pos h

theorem execInsZero_eq {s : State} (ry : RegField) {lsb msb : BitVec 5}
    (h : ¬ msb.toNat < lsb.toNat) :
    execInsZero ry lsb msb s =
      .next (advance (writeX s ry (insertField (readX s ry) 0#32 lsb.toNat msb.toNat))) := if_neg h

theorem execIns_unpredictable {s : State} (ry rx : RegField) {lsb msb : BitVec 5}
    (h : msb.toNat < lsb.toNat) :
    execIns ry rx lsb msb s = .fault (.unpredictable .insField) := if_pos h

theorem execIns_eq {s : State} (ry rx : RegField) {lsb msb : BitVec 5}
    (h : ¬ msb.toNat < lsb.toNat) :
    execIns ry rx lsb msb s =
      .next (advance (writeX s ry (insertField (readX s ry) (readX s rx) lsb.toNat msb.toNat))) :=
  if_neg h

/-- A register that is not register 0 reads as the value it holds (R21). -/
theorem Holds.readGpr_eq {t : State} {d : RegNum} {v : Word} (h : Holds t d v) (hd : d ≠ 0) :
    readGpr t d = v := h.trans (if_neg hd)

/-! ## The statements -/

/-- Settles O19: one write of the extracted field, whose bits are those of `getLsbD_extractField`. -/
theorem extResult : Obligations.ExtResult := by
  intro s ry rx lsb msbd
  split
  next hover => exact execExt_unpredictable ry rx hover
  next hfits =>
    exact ⟨_, _, execExt_eq ry rx hfits, writesRegister_advance_writeX s ry _,
      fun k hk => getLsbD_extractField _ _ _ hk⟩

/-- Settles O20: both forms write an inserted field; the first inserts from a word of zeros. -/
theorem insResults : Obligations.InsResults := by
  intro s ry rx lsb msb
  split
  next hover => exact ⟨execInsZero_unpredictable ry hover, execIns_unpredictable ry rx hover⟩
  next hfits =>
    refine ⟨⟨_, _, execInsZero_eq ry hfits, writesRegister_advance_writeX s ry _, fun k hk => ?zero⟩,
      ⟨_, _, execIns_eq ry rx hfits, writesRegister_advance_writeX s ry _,
        fun k hk => getLsbD_insertField _ _ _ _ hk⟩⟩
    case zero =>
      rw [getLsbD_insertField _ _ _ _ hk, BitVec.getLsbD_zero]
      rfl

/-- Settles O21: bit `k` of the field comes from bit `k - lsb` of the register in between (O20),
which EXT filled from bit `k` of the source (O19). -/
theorem extThenInsMovesField : Obligations.ExtThenInsMovesField := by
  intro s ry rx rz lsb msbd msb hry hrz hfits hmsb
  have hext := extResult s ry rx lsb msbd
  rw [if_neg (Nat.not_lt.mpr hfits)] at hext
  obtain ⟨t, v, hext, ht, hv⟩ := hext
  have hins := insResults t rz ry lsb msb
  rw [if_neg (by omega), ht.cfg_eq] at hins
  obtain ⟨-, u, w, hins, hu, hw⟩ := hins
  have htarget : readGpr u (xLat s.cfg rz) = w := hu.value.readGpr_eq hrz
  have hbetween : readGpr t (xLat s.cfg ry) = v := ht.value.readGpr_eq hry
  refine ⟨t, u, hext, hins, fun k hk hlow hhigh => ?field, fun hne k hk hout => ?others⟩
  case field =>
    have hin : k - lsb.toNat ≤ msbd.toNat := by omega
    rw [htarget, hw k hk, if_pos ⟨hlow, hhigh⟩, hbetween, hv _ (by omega), decide_eq_true hin,
      Bool.true_and, Nat.sub_add_cancel hlow]
  case others => rw [htarget, hw k hk, if_neg hout, ht.others _ hne]

end Sys2Proof.Machine
end

section
/-! The family UnalignedLoads (45_loads.md): the exceptions of LWL, LWR, SWL and SWR (R221, R251),
and the bytes LWL and LWR leave in their destination (R220). -/

namespace Sys2Proof.Machine

/-! ## The exceptions -/

/-- An LWL or LWR whose access raises ends in that exception (R221). -/
theorem unalignedLoad_raises {s : State} {rx rb : RegField} {imm : BitVec 9}
    {span : Bool → Nat → Nat → List Nat} {f : Access → Word} {e : Trap}
    (h : openAccess s .load 1 true true (baseAddr s rb imm) = raise e) :
    loadResult rx f (unalignedLoad s rb imm span) = .fault (.trap e) := by
  simp only [unalignedLoad, h, raise, loadResult, stopOutcome]

/-- An SWL or SWR whose access raises ends in that exception (R251). -/
theorem unalignedStore_raises {s : State} {rb : RegField} {imm : BitVec 9}
    {cells : Bool → Nat → Nat → Word → List (Nat × Byte)} {y : Word} {e : Trap}
    (h : openAccess s .store 1 true true (baseAddr s rb imm) = raise e) :
    storeResult (unalignedStore s rb imm cells y) = .fault (.trap e) := by
  simp only [unalignedStore, h, raise, storeResult, stopOutcome]

/-- Settles O30: every case is an access that does not open, and to one byte no address is
misaligned. -/
theorem unalignedExceptions : Obligations.UnalignedExceptions := by
  intro s rx imm rb v
  have halign : v.toNat % 1 = 0 := Nat.mod_one _
  refine ⟨fun e he => ?_, fun e he => ?_, fun a ha => ⟨fun hw => ?_, fun hw hb => ?_⟩,
    fun a ha => ⟨fun hw => ?_, fun hw hb => ?_⟩⟩
  · have hopen := openAccess_untranslated (w := true) (b := true) halign he
    exact ⟨unalignedLoad_raises hopen, unalignedLoad_raises hopen⟩
  · have hopen := openAccess_untranslated (w := true) (b := true) halign he
    exact ⟨unalignedStore_raises hopen, unalignedStore_raises hopen⟩
  · have hopen := openAccess_watched (b := true) halign ha hw
    exact ⟨unalignedLoad_raises hopen, unalignedLoad_raises hopen⟩
  · have hopen := openAccess_busError (w := true) halign ha (fun _ => hw) hb
    exact ⟨unalignedLoad_raises hopen, unalignedLoad_raises hopen⟩
  · have hopen := openAccess_watched (b := true) halign ha hw
    exact ⟨unalignedStore_raises hopen, unalignedStore_raises hopen⟩
  · have hopen := openAccess_busError (w := true) halign ha (fun _ => hw) hb
    exact ⟨unalignedStore_raises hopen, unalignedStore_raises hopen⟩

/-! ## The bytes of a word -/

theorem getLsbD_byteOf (w : Word) (k : Nat) {j : Nat} (hj : j < 8) :
    (byteOf w k).getLsbD j = w.getLsbD (8 * k + j) := by
  simp [byteOf, hj]

/-- A word is its four bytes. -/
theorem word_ext_byteOf {x y : Word} (h : ∀ k < 4, byteOf x k = byteOf y k) : x = y := by
  refine BitVec.eq_of_getLsbD_eq fun i hi => ?_
  have hbyte := congrArg (BitVec.getLsbD · (i % 8)) (h (i / 8) (by omega))
  simpa only [getLsbD_byteOf _ _ (Nat.mod_lt i (by decide : 8 > 0)), Nat.div_add_mod] using hbyte

/-- The bytes of four bytes put together. -/
theorem byteOf_append (m : Nat → Byte) {k : Nat} (hk : k < 4) :
    byteOf (m 3 ++ m 2 ++ m 1 ++ m 0) k = m k := by
  interval_cases k
  · exact BitVec.extractLsb'_append_eq_right
  · rw [byteOf, BitVec.extractLsb'_append_eq_of_le (by decide)]
    exact BitVec.extractLsb'_append_eq_right
  · rw [byteOf, BitVec.extractLsb'_append_eq_of_le (by decide),
      BitVec.extractLsb'_append_eq_of_le (by decide)]
    exact BitVec.extractLsb'_append_eq_right
  · rw [byteOf, BitVec.extractLsb'_append_eq_of_le (by decide),
      BitVec.extractLsb'_append_eq_of_le (by decide),
      BitVec.extractLsb'_append_eq_of_le (by decide)]
    exact BitVec.extractLsb'_eq_self

/-- Which byte of a word stands at place `k` of its four addresses, and the other way
round (R64). -/
def byteAtPlace (bigEndian : Bool) (k : Nat) : Nat := if bigEndian then 3 - k else k

theorem byteAtPlace_little (k : Nat) : byteAtPlace false k = k := rfl
theorem byteAtPlace_big (k : Nat) : byteAtPlace true k = 3 - k := rfl

theorem byteAtPlace_lt (bigEndian : Bool) {k : Nat} (hk : k < 4) : byteAtPlace bigEndian k < 4 := by
  cases bigEndian
  · exact hk
  · rw [byteAtPlace_big]; omega

theorem byteAtPlace_involutive (bigEndian : Bool) {k : Nat} (hk : k < 4) :
    byteAtPlace bigEndian (byteAtPlace bigEndian k) = k := by
  cases bigEndian
  · rfl
  · exact Nat.sub_sub_self (by omega)

theorem laneByte_little (v : Word) : laneByte false v = v.toNat % 4 := rfl
theorem laneByte_big (v : Word) : laneByte true v = 3 - v.toNat % 4 := rfl

theorem byteOf_memRead4 (s : State) (p : Nat) {k : Nat} (hk : k < 4) :
    byteOf (memRead4 s p) k = readByte s.mem (p + byteAtPlace s.cfg.bigEndian k) := by
  cases hbe : s.cfg.bigEndian with
  | false =>
    simpa [memRead4, byteAtPlace, hbe] using byteOf_append (fun i => readByte s.mem (p + i)) hk
  | true =>
    simpa [memRead4, byteAtPlace, hbe] using
      byteOf_append (fun i => readByte s.mem (p + (3 - i))) hk

theorem getLsbD_lowMask (n : Nat) {i : Nat} (hi : i < 32) :
    (BitVec.ofNat 32 (2 ^ n - 1)).getLsbD i = decide (i < n) := by
  rw [BitVec.getLsbD_ofNat, Nat.testBit_two_pow_sub_one, decide_eq_true hi, Bool.true_and]

/-- LWL puts the low `byte + 1` bytes of the memory word at the top of the register (R220). -/
theorem byteOf_mergeLeft {byte k : Nat} (hb : byte < 4) (hk : k < 4) (mem old : Word) :
    byteOf (mergeLeft byte mem old) k =
      if 3 - byte ≤ k then byteOf mem (k - (3 - byte)) else byteOf old k := by
  refine BitVec.eq_of_getLsbD_eq fun j hj => ?_
  have hin : 8 * k + j < 32 := by omega
  rw [getLsbD_byteOf _ _ hj]
  simp only [mergeLeft, BitVec.getLsbD_or, BitVec.getLsbD_and, BitVec.getLsbD_shiftLeft,
    getLsbD_lowMask _ hin, hin, decide_true, Bool.true_and]
  split
  next hle =>
    have hout : ¬ 8 * k + j < 24 - 8 * byte := by omega
    have hplace : 8 * k + j - (24 - 8 * byte) = 8 * (k - (3 - byte)) + j := by omega
    simp [hout, hplace, getLsbD_byteOf _ _ hj]
  next hgt =>
    have hlow : 8 * k + j < 24 - 8 * byte := by omega
    simp [hlow, getLsbD_byteOf _ _ hj]

/-- LWR puts the high `4 - byte` bytes of the memory word at the bottom of the register (R220). -/
theorem byteOf_mergeRight {byte k : Nat} (hb : byte < 4) (hk : k < 4) (mem old : Word) :
    byteOf (mergeRight byte mem old) k =
      if k ≤ 3 - byte then byteOf mem (k + byte) else byteOf old k := by
  refine BitVec.eq_of_getLsbD_eq fun j hj => ?_
  have hin : 8 * k + j < 32 := by omega
  rw [getLsbD_byteOf _ _ hj]
  simp only [mergeRight, BitVec.getLsbD_or, BitVec.getLsbD_and, BitVec.getLsbD_not,
    BitVec.getLsbD_ushiftRight, getLsbD_lowMask _ hin, hin, decide_true, Bool.true_and]
  split
  next hle =>
    have hlow : 8 * k + j < 32 - 8 * byte := by omega
    have hplace : 8 * byte + (8 * k + j) = 8 * (k + byte) + j := by omega
    simp [hlow, hplace, getLsbD_byteOf _ _ hj]
  next hgt =>
    have hout : ¬ 8 * k + j < 32 - 8 * byte := by omega
    have habove : 32 ≤ 8 * byte + (8 * k + j) := by omega
    simp [hout, BitVec.getLsbD_of_ge _ _ habove, getLsbD_byteOf _ _ hj]

/-! ## LWL and LWR -/

/-- Where an LWL or LWR completes (R221). -/
theorem unalignedLoad_eq {s : State} (rx : RegField) {imm : BitVec 9} {rb : RegField} {v : Word}
    (f : Access → Word) {span : Bool → Nat → Nat → List Nat} {a : Access}
    (hv : baseAddr s rb imm = v) (hwatch : watchAt s.cfg .load v = false)
    (hbus : busErrorAt s.cfg .load a.pAddr = false)
    (hread : CanRead s v a (span s.cfg.bigEndian a.pAddr (v.toNat % 4))) :
    loadResult rx f (unalignedLoad s rb imm span) =
      .next (loaded s rx (f a) a (span s.cfg.bigEndian a.pAddr (v.toNat % 4))) := by
  subst hv
  have hopen : openAccess s .load 1 true true (baseAddr s rb imm) = .ok a :=
    openAccess_eq (Nat.mod_one _) hread.translated (fun _ => hwatch) (fun _ => hbus)
  simp only [unalignedLoad, hopen, loadBytes, lowBits, checkBytes_of_canRead hread, loadResult,
    loaded]

/-- The byte at `q` of the aligned word around a translated address (R220). -/
theorem byteOf_alignedWord {s : State} {v : Word} {a : Access} (h : translate s .load v = .ok a)
    {k q : Nat} (hk : k < 4) (hq : q = a.pAddr - v.toNat % 4 + byteAtPlace s.cfg.bigEndian k) :
    byteOf (alignedWord s a) k = readByte s.mem q := by
  rw [alignedWord, byteOf_memRead4 _ _ hk, (translate_ok h).1, lowBits, hq]

/-- The bytes of the value LWL writes, `old` being the register before (R220). -/
theorem byteOf_lwlValue {s : State} {v : Word} {a : Access} (h : translate s .load v = .ok a)
    (old : Word) {k : Nat} (hk : k < 4) :
    byteOf (mergeLeft (laneByte s.cfg.bigEndian a.vAddr) (alignedWord s a) old) k =
      if s.cfg.bigEndian then
        (if v.toNat % 4 ≤ k then readByte s.mem (a.pAddr + (3 - k)) else byteOf old k)
      else (if 3 - v.toNat % 4 ≤ k then readByte s.mem (a.pAddr - (3 - k)) else byteOf old k) := by
  obtain ⟨hvirtual, hlow, -⟩ := translate_ok h
  have hb : v.toNat % 4 < 4 := Nat.mod_lt _ (by decide)
  cases hbe : s.cfg.bigEndian with
  | false =>
    rw [if_neg Bool.false_ne_true, laneByte_little, hvirtual, byteOf_mergeLeft hb hk]
    refine ite_congr rfl (fun hle => ?_) (fun _ => rfl)
    exact byteOf_alignedWord h (by omega) (by rw [hbe, byteAtPlace_little]; omega)
  | true =>
    rw [if_pos rfl, laneByte_big, hvirtual, byteOf_mergeLeft (by omega) hk,
      show 3 - (3 - v.toNat % 4) = v.toNat % 4 by omega]
    refine ite_congr rfl (fun hle => ?_) (fun _ => rfl)
    exact byteOf_alignedWord h (by omega) (by rw [hbe, byteAtPlace_big]; omega)

/-- The bytes of the value LWR writes, `old` being the register before (R220). -/
theorem byteOf_lwrValue {s : State} {v : Word} {a : Access} (h : translate s .load v = .ok a)
    (old : Word) {k : Nat} (hk : k < 4) :
    byteOf (mergeRight (laneByte s.cfg.bigEndian a.vAddr) (alignedWord s a) old) k =
      if s.cfg.bigEndian then
        (if k ≤ v.toNat % 4 then readByte s.mem (a.pAddr - k) else byteOf old k)
      else (if k ≤ 3 - v.toNat % 4 then readByte s.mem (a.pAddr + k) else byteOf old k) := by
  obtain ⟨hvirtual, hlow, -⟩ := translate_ok h
  have hb : v.toNat % 4 < 4 := Nat.mod_lt _ (by decide)
  cases hbe : s.cfg.bigEndian with
  | false =>
    rw [if_neg Bool.false_ne_true, laneByte_little, hvirtual, byteOf_mergeRight hb hk]
    refine ite_congr rfl (fun hle => ?_) (fun _ => rfl)
    exact byteOf_alignedWord h (by omega) (by rw [hbe, byteAtPlace_little]; omega)
  | true =>
    rw [if_pos rfl, laneByte_big, hvirtual, byteOf_mergeRight (by omega) hk,
      show 3 - (3 - v.toNat % 4) = v.toNat % 4 by omega]
    refine ite_congr rfl (fun hle => ?_) (fun _ => rfl)
    exact byteOf_alignedWord h (by omega) (by rw [hbe, byteAtPlace_big]; omega)

/-- Settles O28: where the access opens, the value is the merge with the aligned word. -/
theorem unalignedLoadResults : Obligations.UnalignedLoadResults := by
  intro s rx imm rb a v p b be m old hwatch hbus
  refine ⟨fun hread => ?_, fun hread => ?_⟩
  · exact ⟨_, _, unalignedLoad_eq rx _ rfl hwatch hbus hread, loaded_loadsRegister ..,
      fun k hk => byteOf_lwlValue hread.translated old hk⟩
  · exact ⟨_, _, unalignedLoad_eq rx _ rfl hwatch hbus hread, loaded_loadsRegister ..,
      fun k hk => byteOf_lwrValue hread.translated old hk⟩

end Sys2Proof.Machine
end

section
/-! The family UnalignedLoads, continued: an unaligned word by two accesses on a machine whose
addresses translate to themselves (R223, R253). The first access reaches from the word's first byte to
the end of its aligned word, the last from the start of an aligned word to the word's last byte;
between them they reach all four places. -/

namespace Sys2Proof.Machine

/-! ## The four places of a word at any address -/

/-- The address of place `k` of the word at `v`, modulo 2^32. -/
def wordByte (v : Word) (k : Nat) : Nat := (v + BitVec.ofNat 32 k).toNat

/-- The addresses of the word at `v`. -/
def wordAt (v : Word) : List Nat := (List.range 4).map (wordByte v)

/-- The places that lie in the aligned word of the first byte. -/
def firstPlaces (v : Word) : List Nat := List.range (4 - v.toNat % 4)

/-- The places that lie in the aligned word of the last byte, from the last one down. -/
def lastPlaces (v : Word) : List Nat := (List.range ((v + 3#32).toNat % 4 + 1)).map (3 - ·)

/-- Some of the places of a word, each once. -/
structure IsPlaces (ks : List Nat) : Prop where
  nodup : ks.Nodup
  lt : ∀ k ∈ ks, k < 4

theorem wordByte_mem_wordAt (v : Word) {k : Nat} (hk : k < 4) : wordByte v k ∈ wordAt v :=
  List.mem_map_of_mem (List.mem_range.mpr hk)

theorem wordByte_injective {v : Word} {j k : Nat} (hj : j < 4) (hk : k < 4)
    (h : wordByte v j = wordByte v k) : j = k := by
  simp only [wordByte, BitVec.toNat_add, BitVec.toNat_ofNat] at h
  omega

theorem mem_firstPlaces {v : Word} {k : Nat} : k ∈ firstPlaces v ↔ v.toNat % 4 + k < 4 := by
  rw [firstPlaces, List.mem_range]
  omega

theorem mem_lastPlaces {v : Word} {k : Nat} (hk : k < 4) :
    k ∈ lastPlaces v ↔ 3 - k ≤ (v + 3#32).toNat % 4 := by
  simp only [lastPlaces, List.mem_map, List.mem_range]
  constructor
  · rintro ⟨i, hi, rfl⟩
    omega
  · intro h
    exact ⟨3 - k, by omega, by omega⟩

theorem firstPlaces_isPlaces (v : Word) : IsPlaces (firstPlaces v) where
  nodup := List.nodup_range
  lt k hk := by rw [mem_firstPlaces] at hk; omega

theorem lastPlaces_isPlaces (v : Word) : IsPlaces (lastPlaces v) where
  nodup := by
    refine List.Nodup.map_on (fun i hi j hj hij => ?_) List.nodup_range
    rw [List.mem_range] at hi hj
    omega
  lt k hk := by
    obtain ⟨i, -, rfl⟩ := List.mem_map.mp hk
    omega

/-- A place that the first access does not reach, the last one does. -/
theorem mem_lastPlaces_of_not_first {v : Word} {k : Nat} (hk : k < 4) (h : k ∉ firstPlaces v) :
    k ∈ lastPlaces v := by
  rw [mem_firstPlaces] at h
  rw [mem_lastPlaces hk, BitVec.toNat_add, BitVec.toNat_ofNat]
  omega

/-- The first access goes up from its address. -/
theorem wordByte_first {v : Word} {k : Nat} (h : k ∈ firstPlaces v) :
    wordByte v k = v.toNat + k := by
  rw [mem_firstPlaces] at h
  rw [wordByte, BitVec.toNat_add, BitVec.toNat_ofNat]
  omega

/-- The last access goes down from its address. -/
theorem wordByte_last {v : Word} {k : Nat} (hk : k < 4) (h : k ∈ lastPlaces v) :
    wordByte v k = (v + 3#32).toNat - (3 - k) := by
  rw [mem_lastPlaces hk, BitVec.toNat_add, BitVec.toNat_ofNat] at h
  rw [wordByte, BitVec.toNat_add, BitVec.toNat_add, BitVec.toNat_ofNat, BitVec.toNat_ofNat]
  omega

theorem upSpan_subset_wordAt {v : Word} : ∀ q ∈ upSpan v.toNat (v.toNat % 4), q ∈ wordAt v := by
  intro q hq
  rw [upSpan, mem_byteSpan] at hq
  have hin : q - v.toNat ∈ firstPlaces v := by rw [mem_firstPlaces]; omega
  have hq' : q = wordByte v (q - v.toNat) := by rw [wordByte_first hin]; omega
  rw [hq']
  exact wordByte_mem_wordAt v ((firstPlaces_isPlaces v).lt _ hin)

theorem downSpan_subset_wordAt {v : Word} :
    ∀ q ∈ downSpan (v + 3#32).toNat ((v + 3#32).toNat % 4), q ∈ wordAt v := by
  intro q hq
  rw [downSpan, mem_byteSpan] at hq
  have hk : 3 - ((v + 3#32).toNat - q) < 4 := by omega
  have hin : 3 - ((v + 3#32).toNat - q) ∈ lastPlaces v := by rw [mem_lastPlaces hk]; omega
  have hq' : q = wordByte v (3 - ((v + 3#32).toNat - q)) := by rw [wordByte_last hk hin]; omega
  rw [hq']
  exact wordByte_mem_wordAt v hk

/-! ## Addresses that translate to themselves -/

/-- The access of an address that translates to itself (D2). -/
def identityAccess (s : State) (v : Word) : Access := ⟨v, v.toNat, ccaFrom s s.cfg.defaultCca⟩

theorem translate_identity {s : State} (h : s.cfg.translation = []) (kind : AccessKind) (v : Word) :
    translate s kind v = .ok (identityAccess s v) := by
  have hphys : physOf 0#30 0 v = v.toNat := by
    rw [physOf, BitVec.extractLsb'_toNat, Nat.shiftRight_eq_div_pow, BitVec.toNat_ofNat]
    omega
  simp only [translate, transEntry, h, List.find?_nil, identityEntry, hphys, identityAccess]

/-- The word at `v` can be loaded on a machine without translation, watches or bus errors. -/
structure PlainWord (s : State) (v : Word) : Prop where
  untranslated : s.cfg.translation = []
  unwatched : s.cfg.watches = []
  noBusError : s.cfg.busErrors = []
  present : ∀ q ∈ wordAt v, populated s.cfg q = true
  oneType : typeConflict s (wordAt v) (ccaFrom s s.cfg.defaultCca) = false

theorem typeConflict_mono {s : State} {bs cs : List Nat} {cca : Cca} (hsub : ∀ q ∈ bs, q ∈ cs)
    (h : typeConflict s cs cca = false) : typeConflict s bs cca = false := by
  have hany (ds : List Nat) : ds.any (bs.contains ·) = true → ds.any (cs.contains ·) = true := by
    simp only [List.any_eq_true, List.contains_iff_mem]
    exact fun ⟨q, hd, hb⟩ => ⟨q, hd, hsub q hb⟩
  simp only [typeConflict, List.any_eq_false] at h ⊢
  intro e he
  cases e with
  | barrier k => simp
  | access kind ds c =>
    have hconflict := h _ he
    cases kind with
    | load | store =>
      simp only [Bool.and_eq_true, not_and] at hconflict ⊢
      exact fun hne hb => hconflict hne (hany ds hb)
    | cacheop | pref | fetch => simp

/-- An access of the type compared with makes no conflict (R71). -/
theorem typeConflict_of_history {s t : State} {kind : AccessKind} {bs cs : List Nat} {cca : Cca}
    (h : t.history = .access kind bs cca :: s.history) :
    typeConflict t cs cca = typeConflict s cs cca := by
  cases kind <;> simp [typeConflict, h]

variable {s : State} {v : Word}

theorem PlainWord.watchAt_eq (h : PlainWord s v) (f : Flavour) (x : Word) :
    watchAt s.cfg f x = false := by
  simp [watchAt, h.unwatched]

theorem PlainWord.busErrorAt_eq (h : PlainWord s v) (f : Flavour) (p : Nat) :
    busErrorAt s.cfg f p = false := by
  simp [busErrorAt, h.noBusError]

theorem PlainWord.canRead (h : PlainWord s v) (x : Word) {bs : List Nat}
    (hbs : ∀ q ∈ bs, q ∈ wordAt v) : CanRead s x (identityAccess s x) bs where
  translated := translate_identity h.untranslated .load x
  present q hq := h.present q (hbs q hq)
  oneType := typeConflict_mono hbs h.oneType

theorem PlainWord.canWrite (h : PlainWord s v) (htext : ∀ q ∈ wordAt v, inText s.cfg q = false)
    (x : Word) {bs : List Nat} (hbs : ∀ q ∈ bs, q ∈ wordAt v) :
    CanWrite s x (identityAccess s x) bs where
  translated := translate_identity h.untranslated .store x
  present q hq := h.present q (hbs q hq)
  oneType := typeConflict_mono hbs h.oneType
  writable q hq := htext q (hbs q hq)

/-- A load through such an address leaves the word as loadable as it was. -/
theorem PlainWord.after_loaded (h : PlainWord s v) (rx : RegField) (w x : Word) (bs : List Nat) :
    PlainWord (loaded s rx w (identityAccess s x) bs) v :=
  { h with oneType := (typeConflict_of_history (s := s) rfl).trans h.oneType }

/-- So does a store. -/
theorem PlainWord.after_stored (h : PlainWord s v) (x : Word) (cs : List (Nat × Byte)) :
    PlainWord (stored s (identityAccess s x) cs) v :=
  { h with oneType := (typeConflict_of_history (s := s) rfl).trans h.oneType }

/-! ## Loading the word -/

/-- The word `w` holds the bytes at the places `ks` of the word at `v`, and else those of `old`. -/
def TakesPlaces (s : State) (v old w : Word) (ks : List Nat) : Prop :=
  ∀ k < 4, byteOf w (byteAtPlace s.cfg.bigEndian k) =
    if k ∈ ks then readByte s.mem (wordByte v k) else byteOf old (byteAtPlace s.cfg.bigEndian k)

/-- An LWL or LWR completes with its value, whichever of the places that takes. -/
theorem PlainWord.load_takes (hword : PlainWord s v) (rx : RegField) {imm : BitVec 9}
    {rb : RegField} {x : Word} {f : Access → Word} {span : Bool → Nat → Nat → List Nat}
    {ks : List Nat} (hv : baseAddr s rb imm = x)
    (hspan : ∀ q ∈ span s.cfg.bigEndian x.toNat (x.toNat % 4), q ∈ wordAt v)
    (hvalue : TakesPlaces s v (readX s rx) (f (identityAccess s x)) ks) :
    ∃ w bs, loadResult rx f (unalignedLoad s rb imm span) =
        .next (loaded s rx w (identityAccess s x) bs) ∧ TakesPlaces s v (readX s rx) w ks :=
  ⟨_, _, unalignedLoad_eq rx f hv (hword.watchAt_eq ..) (hword.busErrorAt_eq ..)
    (hword.canRead x hspan), hvalue⟩

theorem execLwl_big (hbe : s.cfg.bigEndian = true) (hword : PlainWord s v) (rx : RegField)
    {imm : BitVec 9} {rb : RegField} (hv : baseAddr s rb imm = v) :
    ∃ w bs, exec (.lwl rx imm rb) s = .next (loaded s rx w (identityAccess s v) bs) ∧
      TakesPlaces s v (readX s rx) w (firstPlaces v) := by
  refine hword.load_takes rx hv (by rw [hbe]; exact upSpan_subset_wordAt) fun k hk => ?_
  rw [byteOf_lwlValue (translate_identity hword.untranslated .load v) _ (byteAtPlace_lt _ hk), hbe,
    if_pos rfl, byteAtPlace_big]
  refine ite_congr (propext (by rw [mem_firstPlaces]; omega)) (fun hin => ?_) (fun _ => rfl)
  rw [wordByte_first hin, Nat.sub_sub_self (by omega)]
  rfl

theorem execLwr_big (hbe : s.cfg.bigEndian = true) (hword : PlainWord s v) (rx : RegField)
    {imm : BitVec 9} {rb : RegField} (hv : baseAddr s rb imm = v + 3#32) :
    ∃ w bs, exec (.lwr rx imm rb) s = .next (loaded s rx w (identityAccess s (v + 3#32)) bs) ∧
      TakesPlaces s v (readX s rx) w (lastPlaces v) := by
  refine hword.load_takes rx hv (by rw [hbe]; exact downSpan_subset_wordAt) fun k hk => ?_
  rw [byteOf_lwrValue (translate_identity hword.untranslated .load _) _ (byteAtPlace_lt _ hk), hbe,
    if_pos rfl, byteAtPlace_big]
  refine ite_congr (propext (mem_lastPlaces hk).symm) (fun hin => ?_) (fun _ => rfl)
  rw [wordByte_last hk hin]
  rfl

theorem execLwr_little (hbe : s.cfg.bigEndian = false) (hword : PlainWord s v) (rx : RegField)
    {imm : BitVec 9} {rb : RegField} (hv : baseAddr s rb imm = v) :
    ∃ w bs, exec (.lwr rx imm rb) s = .next (loaded s rx w (identityAccess s v) bs) ∧
      TakesPlaces s v (readX s rx) w (firstPlaces v) := by
  refine hword.load_takes rx hv (by rw [hbe]; exact upSpan_subset_wordAt) fun k hk => ?_
  rw [byteOf_lwrValue (translate_identity hword.untranslated .load v) _ (byteAtPlace_lt _ hk), hbe,
    if_neg Bool.false_ne_true, byteAtPlace_little]
  refine ite_congr (propext (by rw [mem_firstPlaces]; omega)) (fun hin => ?_) (fun _ => rfl)
  rw [wordByte_first hin]
  rfl

theorem execLwl_little (hbe : s.cfg.bigEndian = false) (hword : PlainWord s v) (rx : RegField)
    {imm : BitVec 9} {rb : RegField} (hv : baseAddr s rb imm = v + 3#32) :
    ∃ w bs, exec (.lwl rx imm rb) s = .next (loaded s rx w (identityAccess s (v + 3#32)) bs) ∧
      TakesPlaces s v (readX s rx) w (lastPlaces v) := by
  refine hword.load_takes rx hv (by rw [hbe]; exact downSpan_subset_wordAt) fun k hk => ?_
  rw [byteOf_lwlValue (translate_identity hword.untranslated .load _) _ (byteAtPlace_lt _ hk), hbe,
    if_neg Bool.false_ne_true, byteAtPlace_little]
  refine ite_congr (propext (by rw [mem_lastPlaces hk]; omega)) (fun hin => ?_) (fun _ => rfl)
  rw [wordByte_last hk hin]
  rfl

theorem baseAddr_loaded (s : State) {rx rb : RegField} (h : xLat s.cfg rx ≠ xLat s.cfg rb)
    (imm : BitVec 9) (w : Word) (a : Access) (bs : List Nat) :
    baseAddr (loaded s rx w a bs) rb imm = baseAddr s rb imm :=
  congrArg (· + sext9 imm) (readGpr_writeX_other (record (noteLoad s a) _) rx w h.symm)

/-- The immediate of the last access is 3 more than that of the first (R223). -/
theorem baseAddr_add_three (s : State) (rb : RegField) {i j : BitVec 9}
    (h : j.signExtend 32 = i.signExtend 32 + 3#32) :
    baseAddr s rb j = baseAddr s rb i + 3#32 := by
  rw [baseAddr, sext9, h, ← BitVec.add_assoc]
  rfl

/-- The word `y` is the word at `v` in the byte order of `s`. -/
def IsWordAt (s : State) (v y : Word) : Prop :=
  ∀ k < 4, byteOf y (byteAtPlace s.cfg.bigEndian k) = readByte s.mem (wordByte v k)

theorem IsWordAt.unique {x y : Word} (hx : IsWordAt s v x) (hy : IsWordAt s v y) : x = y := by
  refine word_ext_byteOf fun k hk => ?_
  have hlane := byteAtPlace_lt s.cfg.bigEndian hk
  rw [← byteAtPlace_involutive s.cfg.bigEndian hk, hx _ hlane, hy _ hlane]

theorem isWordAt_big (hbe : s.cfg.bigEndian = true) :
    IsWordAt s v (readByte s.mem (wordByte v 0) ++ readByte s.mem (wordByte v 1) ++
      readByte s.mem (wordByte v 2) ++ readByte s.mem (wordByte v 3)) := by
  intro k hk
  rw [hbe, byteAtPlace_big]
  have hbyte := byteOf_append (fun k => readByte s.mem (wordByte v (3 - k)))
    (show 3 - k < 4 by omega)
  simpa only [Nat.sub_sub_self (show k ≤ 3 by omega), Nat.reduceSub] using hbyte

theorem isWordAt_little (hbe : s.cfg.bigEndian = false) :
    IsWordAt s v (readByte s.mem (wordByte v 3) ++ readByte s.mem (wordByte v 2) ++
      readByte s.mem (wordByte v 1) ++ readByte s.mem (wordByte v 0)) := by
  intro k hk
  rw [hbe, byteAtPlace_little]
  exact byteOf_append (fun k => readByte s.mem (wordByte v k)) hk

/-- After both loads the register holds the word: what the last one did not reach, it kept from the
first. -/
theorem loaded_pair_holds {rx : RegField} {w w' y : Word} {a a' : Access} {bs bs' : List Nat}
    (hfirst : TakesPlaces s v (readX s rx) w (firstPlaces v))
    (hlast : TakesPlaces (loaded s rx w a bs) v (readX (loaded s rx w a bs) rx) w' (lastPlaces v))
    (hy : IsWordAt s v y) :
    Holds (loaded (loaded s rx w a bs) rx w' a' bs') (xLat s.cfg rx) y := by
  have hbetween : Holds (loaded s rx w a bs) (xLat s.cfg rx) w :=
    (loaded_loadsRegister s rx w a bs).value
  have hvalue : Holds (loaded (loaded s rx w a bs) rx w' a' bs') (xLat s.cfg rx) w' :=
    (loaded_loadsRegister (loaded s rx w a bs) rx w' a' bs').value
  by_cases hzero : xLat s.cfg rx = 0
  · exact hvalue.trans ((if_pos hzero).trans (if_pos hzero).symm)
  · have hold : readX (loaded s rx w a bs) rx = w := hbetween.readGpr_eq hzero
    have hw' : IsWordAt s v w' := by
      intro k hk
      refine (hlast k hk).trans ?_
      split
      next => rfl
      next hout =>
        have hin : k ∈ firstPlaces v := by
          by_contra hnot
          exact hout (mem_lastPlaces_of_not_first hk hnot)
        rw [hold]
        exact (hfirst k hk).trans (if_pos hin)
    exact hw'.unique hy ▸ hvalue

/-- Big-endian, LWL at the first byte and LWR at the last one load the word (R223). -/
theorem execLwl_execLwr_big (hbe : s.cfg.bigEndian = true) (hword : PlainWord s v)
    {rx rb : RegField} {i j : BitVec 9} {y : Word} (hne : xLat s.cfg rx ≠ xLat s.cfg rb)
    (hi : baseAddr s rb i = v) (hj : baseAddr s rb j = v + 3#32) (hy : IsWordAt s v y) :
    ∃ t u, exec (.lwl rx i rb) s = .next t ∧ exec (.lwr rx j rb) t = .next u ∧
      Holds u (xLat s.cfg rx) y := by
  obtain ⟨w, bs, hlwl, hfirst⟩ := execLwl_big hbe hword rx hi
  obtain ⟨w', bs', hlwr, hlast⟩ := execLwr_big (s := loaded s rx w _ bs) hbe
    (hword.after_loaded ..) rx ((baseAddr_loaded s hne ..).trans hj)
  exact ⟨_, _, hlwl, hlwr, loaded_pair_holds hfirst hlast hy⟩

/-- Little-endian, LWR at the first byte and LWL at the last one load the word (R223). -/
theorem execLwr_execLwl_little (hbe : s.cfg.bigEndian = false) (hword : PlainWord s v)
    {rx rb : RegField} {i j : BitVec 9} {y : Word} (hne : xLat s.cfg rx ≠ xLat s.cfg rb)
    (hi : baseAddr s rb i = v) (hj : baseAddr s rb j = v + 3#32) (hy : IsWordAt s v y) :
    ∃ t u, exec (.lwr rx i rb) s = .next t ∧ exec (.lwl rx j rb) t = .next u ∧
      Holds u (xLat s.cfg rx) y := by
  obtain ⟨w, bs, hlwr, hfirst⟩ := execLwr_little hbe hword rx hi
  obtain ⟨w', bs', hlwl, hlast⟩ := execLwl_little (s := loaded s rx w _ bs) hbe
    (hword.after_loaded ..) rx ((baseAddr_loaded s hne ..).trans hj)
  exact ⟨_, _, hlwr, hlwl, loaded_pair_holds hfirst hlast hy⟩

/-- Settles O29: the two loads between them take all four places. -/
theorem unalignedPairLoadsWord : Obligations.UnalignedPairLoadsWord := by
  intro s rx rb i j v m whole hne hj htrans hwatch hbus hpresent htype
  have hword : PlainWord s v := ⟨htrans, hwatch, hbus, hpresent, htype⟩
  have hlast : baseAddr s rb j = v + 3#32 := baseAddr_add_three s rb hj
  exact ⟨fun hbe => execLwl_execLwr_big hbe hword hne rfl hlast (isWordAt_big hbe),
    fun hbe => execLwr_execLwl_little hbe hword hne rfl hlast (isWordAt_little hbe)⟩

/-! ## Storing the word -/

/-- The bytes `bytes` at the places `ks` of the word at `v`. -/
def placeCells (v : Word) (bytes : Nat → Byte) (ks : List Nat) : List (Nat × Byte) :=
  ks.map fun k => (wordByte v k, bytes k)

theorem placeCells_addresses (v : Word) (bytes : Nat → Byte) (ks : List Nat) :
    (placeCells v bytes ks).map (·.1) = ks.map (wordByte v) := by
  simp [placeCells]

theorem placeCells_subset_wordAt {bytes : Nat → Byte} {ks : List Nat} (hks : IsPlaces ks) :
    ∀ q ∈ (placeCells v bytes ks).map (·.1), q ∈ wordAt v := by
  rw [placeCells_addresses, List.forall_mem_map]
  exact fun k hk => wordByte_mem_wordAt v (hks.lt k hk)

/-- A place of the word after a store to some of them: the byte stored there, or what was there. -/
theorem readByte_writeBytes_placeCells {m : List Host.Cell} (hwf : Memory.wf m = true)
    (bytes : Nat → Byte) {ks : List Nat} (hks : IsPlaces ks) {k : Nat} (hk : k < 4) :
    readByte (writeBytes m (placeCells v bytes ks)) (wordByte v k) =
      if k ∈ ks then bytes k else readByte m (wordByte v k) := by
  split
  next hin =>
    have hdistinct : ((placeCells v bytes ks).map (·.1)).Nodup := by
      rw [placeCells_addresses]
      exact hks.nodup.map_on fun i hi j hj => wordByte_injective (hks.lt i hi) (hks.lt j hj)
    exact readByte_writeBytes_inside _ hwf hdistinct (List.mem_map.mpr ⟨k, hin, rfl⟩)
  next hout =>
    refine readByte_writeBytes_outside _ hwf ?_
    rw [placeCells_addresses, List.mem_map]
    rintro ⟨j, hj, heq⟩
    exact hout (wordByte_injective (hks.lt j hj) hk heq ▸ hj)

/-- After stores to the first and to the last places every place holds its byte, and no other byte
has changed. -/
theorem readByte_writeBytes_word {m : List Host.Cell} (hwf : Memory.wf m = true)
    (bytes : Nat → Byte) :
    let m' := writeBytes (writeBytes m (placeCells v bytes (firstPlaces v)))
      (placeCells v bytes (lastPlaces v))
    (∀ k < 4, readByte m' (wordByte v k) = bytes k) ∧
      ∀ q, q ∉ wordAt v → readByte m' q = readByte m q := by
  have hfirst := firstPlaces_isPlaces v
  have hlast := lastPlaces_isPlaces v
  have hwf' := writeBytes_wf (placeCells v bytes (firstPlaces v)) hwf
  refine ⟨fun k hk => ?_, fun q hq => ?_⟩
  · rw [readByte_writeBytes_placeCells hwf' bytes hlast hk,
      readByte_writeBytes_placeCells hwf bytes hfirst hk]
    split
    next => rfl
    next hout =>
      exact if_pos (by_contra fun hnot => hout (mem_lastPlaces_of_not_first hk hnot))
  · rw [readByte_writeBytes_outside _ hwf' fun h => hq (placeCells_subset_wordAt hlast q h),
      readByte_writeBytes_outside _ hwf fun h => hq (placeCells_subset_wordAt hfirst q h)]

/-- The bytes of `y` in the order in which they stand at the places of a word (R65). -/
def placedBytes (bigEndian : Bool) (y : Word) (k : Nat) : Byte := byteOf y (byteAtPlace bigEndian k)

theorem leftCells_big (v y : Word) :
    leftCells true v.toNat (v.toNat % 4) y = placeCells v (placedBytes true y) (firstPlaces v) := by
  refine List.map_congr_left fun k hk => ?_
  rw [wordByte_first hk]
  rfl

theorem rightCells_little (v y : Word) :
    rightCells false v.toNat (v.toNat % 4) y =
      placeCells v (placedBytes false y) (firstPlaces v) := by
  refine List.map_congr_left fun k hk => ?_
  rw [wordByte_first hk]
  rfl

/-- Going down from the last byte, the `i`-th address is that of place `3 - i`. -/
theorem downCells_eq (v : Word) (bytes : Nat → Byte) :
    ((List.range ((v + 3#32).toNat % 4 + 1)).map fun i => ((v + 3#32).toNat - i, bytes (3 - i))) =
      placeCells v bytes (lastPlaces v) := by
  rw [placeCells, lastPlaces, List.map_map]
  refine List.map_congr_left fun i hi => ?_
  have hin : 3 - i ∈ lastPlaces v := List.mem_map_of_mem hi
  rw [List.mem_range] at hi
  rw [Function.comp_apply, wordByte_last (by omega) hin, Nat.sub_sub_self (by omega)]

theorem rightCells_big (v y : Word) :
    rightCells true (v + 3#32).toNat ((v + 3#32).toNat % 4) y =
      placeCells v (placedBytes true y) (lastPlaces v) := by
  rw [← downCells_eq]
  refine List.map_congr_left fun i hi => ?_
  rw [List.mem_range] at hi
  rw [placedBytes, byteAtPlace_big, Nat.sub_sub_self (by omega)]

theorem leftCells_little (v y : Word) :
    leftCells false (v + 3#32).toNat ((v + 3#32).toNat % 4) y =
      placeCells v (placedBytes false y) (lastPlaces v) := downCells_eq v (placedBytes false y)

/-- Where an SWL or SWR to some places of the word completes (R251). -/
theorem PlainWord.store_eq (hword : PlainWord s v)
    (htext : ∀ q ∈ wordAt v, inText s.cfg q = false) {imm : BitVec 9} {rb : RegField} {x y : Word}
    {cells : Bool → Nat → Nat → Word → List (Nat × Byte)} {bytes : Nat → Byte} {ks : List Nat}
    (hv : baseAddr s rb imm = x) (hks : IsPlaces ks)
    (hcells : cells s.cfg.bigEndian x.toNat (x.toNat % 4) y = placeCells v bytes ks) :
    storeResult (unalignedStore s rb imm cells y) =
      .next (stored s (identityAccess s x) (placeCells v bytes ks)) := by
  subst hv
  have hwrite := hword.canWrite htext (baseAddr s rb imm)
    (placeCells_subset_wordAt (bytes := bytes) hks)
  have hopen : openAccess s .store 1 true true (baseAddr s rb imm) =
      .ok (identityAccess s (baseAddr s rb imm)) :=
    openAccess_eq (Nat.mod_one _) hwrite.translated (fun _ => hword.watchAt_eq ..)
      (fun _ => hword.busErrorAt_eq ..)
  have hcells' : cells s.cfg.bigEndian (identityAccess s (baseAddr s rb imm)).pAddr
      (lowBits (baseAddr s rb imm)) y = placeCells v bytes ks := hcells
  simp only [unalignedStore, hopen, hcells', storeBytes_eq (checkCells_of_canWrite hwrite),
    storeResult, stored]

/-- The state after a store to the first and one to the last places. -/
def storedPair (s : State) (v : Word) (bytes : Nat → Byte) : State :=
  stored (stored s (identityAccess s v) (placeCells v bytes (firstPlaces v)))
    (identityAccess s (v + 3#32)) (placeCells v bytes (lastPlaces v))

theorem PlainWord.after_storedPair (h : PlainWord s v) (bytes : Nat → Byte) :
    PlainWord (storedPair s v bytes) v :=
  (h.after_stored v _).after_stored (v + 3#32) _

theorem storedPair_places (hwf : Memory.wf s.mem = true) (v : Word) (bytes : Nat → Byte) :
    (∀ k < 4, readByte (storedPair s v bytes).mem (wordByte v k) = bytes k) ∧
      ∀ q, q ∉ wordAt v → readByte (storedPair s v bytes).mem q = readByte s.mem q :=
  readByte_writeBytes_word hwf bytes

theorem storedPair_isWordAt (hwf : Memory.wf s.mem = true) (v y : Word) :
    IsWordAt (storedPair s v (placedBytes s.cfg.bigEndian y)) v y :=
  fun k hk => ((storedPair_places hwf v (placedBytes s.cfg.bigEndian y)).1 k hk).symm

theorem storedPair_cfg (s : State) (v : Word) (bytes : Nat → Byte) :
    (storedPair s v bytes).cfg = s.cfg := rfl

theorem baseAddr_storedPair (s : State) (v : Word) (bytes : Nat → Byte) (rb : RegField)
    (imm : BitVec 9) : baseAddr (storedPair s v bytes) rb imm = baseAddr s rb imm := rfl

/-- Big-endian, SWL at the first byte and SWR at the last one store the word (R253). -/
theorem execSwl_execSwr_big (hbe : s.cfg.bigEndian = true) (hword : PlainWord s v)
    (htext : ∀ q ∈ wordAt v, inText s.cfg q = false) (rx : RegField) {rb : RegField}
    {i j : BitVec 9} (hi : baseAddr s rb i = v) (hj : baseAddr s rb j = v + 3#32) :
    ∃ t, exec (.swl rx i rb) s = .next t ∧
      exec (.swr rx j rb) t =
        .next (storedPair s v (placedBytes s.cfg.bigEndian (readX s rx))) := by
  refine ⟨_, hword.store_eq htext hi (firstPlaces_isPlaces v) ?first,
    (hword.after_stored v _).store_eq htext hj (lastPlaces_isPlaces v) ?last⟩
  case first => rw [hbe]; exact leftCells_big v _
  case last => exact hbe ▸ rightCells_big v _

/-- Little-endian, SWR at the first byte and SWL at the last one store the word (R253). -/
theorem execSwr_execSwl_little (hbe : s.cfg.bigEndian = false) (hword : PlainWord s v)
    (htext : ∀ q ∈ wordAt v, inText s.cfg q = false) (rx : RegField) {rb : RegField}
    {i j : BitVec 9} (hi : baseAddr s rb i = v) (hj : baseAddr s rb j = v + 3#32) :
    ∃ t, exec (.swr rx i rb) s = .next t ∧
      exec (.swl rx j rb) t =
        .next (storedPair s v (placedBytes s.cfg.bigEndian (readX s rx))) := by
  refine ⟨_, hword.store_eq htext hi (firstPlaces_isPlaces v) ?first,
    (hword.after_stored v _).store_eq htext hj (lastPlaces_isPlaces v) ?last⟩
  case first => rw [hbe]; exact rightCells_little v _
  case last => exact hbe ▸ leftCells_little v _

/-- Settles O34: the two stores leave the word at `v`, and the two loads of R223 load it there. -/
theorem unalignedPairStoresWord : Obligations.UnalignedPairStoresWord := by
  intro s rx rz rb i j v y whole hne hj hwf htrans hwatch hbus hbytes htype
  have htext : ∀ q ∈ wordAt v, inText s.cfg q = false := fun q hq => (hbytes q hq).2
  have hword : PlainWord s v := ⟨htrans, hwatch, hbus, fun q hq => (hbytes q hq).1, htype⟩
  have hfirst : baseAddr s rb i = v := rfl
  have hlast : baseAddr s rb j = v + 3#32 := baseAddr_add_three s rb hj
  obtain ⟨hplaces, hothers⟩ := storedPair_places hwf v (placedBytes s.cfg.bigEndian y)
  have hword' := hword.after_storedPair (placedBytes s.cfg.bigEndian y)
  have hback := storedPair_isWordAt hwf v y
  have hcfg := storedPair_cfg s v (placedBytes s.cfg.bigEndian y)
  refine ⟨fun hbe => ?_, fun hbe => ?_⟩
  · obtain ⟨t, hswl, hswr⟩ := execSwl_execSwr_big hbe hword htext rx hfirst hlast
    obtain ⟨x, z, hlwl, hlwr, hz⟩ := execLwl_execLwr_big (by rw [hcfg, hbe]) hword'
      (by rwa [hcfg]) ((baseAddr_storedPair ..).trans hfirst)
      ((baseAddr_storedPair ..).trans hlast) hback
    rw [hcfg] at hz
    refine ⟨t, _, x, z, hswl, hswr, fun k hk => ?_, hothers, hlwl, hlwr, hz⟩
    exact (hplaces k hk).trans (by rw [placedBytes, hbe, byteAtPlace_big])
  · obtain ⟨t, hswr, hswl⟩ := execSwr_execSwl_little hbe hword htext rx hfirst hlast
    obtain ⟨x, z, hlwr, hlwl, hz⟩ := execLwr_execLwl_little (by rw [hcfg, hbe]) hword'
      (by rwa [hcfg]) ((baseAddr_storedPair ..).trans hfirst)
      ((baseAddr_storedPair ..).trans hlast) hback
    rw [hcfg] at hz
    refine ⟨t, _, x, z, hswr, hswl, fun k hk => ?_, hothers, hlwr, hlwl, hz⟩
    exact (hplaces k hk).trans (by rw [placedBytes, hbe, byteAtPlace_little])

end Sys2Proof.Machine
end

section
/-! The family ConditionalMoves (46_conditional_moves.md): the value and the frame of the eight
forms, and the complementary pairs of R239. -/

namespace Sys2Proof.Machine

/-! ## One conditional move -/

/-- Every register holds what it reads as; register 0 holds zero (R21). -/
theorem holds_readGpr (s : State) (d : RegNum) : Holds s d (readGpr s d) := by
  by_cases hd : d = 0 <;> simp [Holds, readGpr, hd]

/-- An instruction that only moves the pc on leaves every register as it is. -/
theorem writesRegister_advance (s : State) (d : RegNum) :
    WritesRegister s (advance s) d (readGpr s d) where
  pc := rfl
  value := holds_readGpr s d
  others _ _ := rfl
  memory _ := rfl
  rest := rfl

/-- A conditional move is a write of the value or of what the destination already reads as (R238). -/
theorem writesRegister_condMove (s : State) (cond : Prop) [Decidable cond] (rx : RegField)
    (v : Word) :
    WritesRegister s (condMove s (decide cond) rx v) (xLat s.cfg rx)
      (if cond then v else readGpr s (xLat s.cfg rx)) := by
  by_cases h : cond
  · simpa only [condMove, h, decide_true, if_true] using writesRegister_advance_writeX s rx v
  · simpa only [condMove, h, decide_false, if_false, Bool.false_eq_true]
      using writesRegister_advance s (xLat s.cfg rx)

/-- Settles O22: each form is one conditional move of its destination. -/
theorem conditionalMoveResults : Obligations.ConditionalMoveResults := by
  intro s rx rb ry
  have moves (cond : Prop) [Decidable cond] (v : Word) := writesRegister_condMove s cond rx v
  exact ⟨⟨_, rfl, moves _ _⟩, ⟨_, rfl, moves _ _⟩, ⟨_, rfl, moves _ _⟩, ⟨_, rfl, moves _ _⟩,
    ⟨_, rfl, moves _ _⟩, ⟨_, rfl, moves _ _⟩, ⟨_, rfl, moves _ _⟩, ⟨_, rfl, moves _ _⟩⟩

/-! ## Complementary pairs -/

/-- A move to `d` where `c` is zero, then one from `b` where `c` is not, selects between the two
values (R239): the first move leaves `c` and `b` as they were, so the second tests the same
condition, and where it does not move `d` keeps what the first move wrote. -/
theorem WritesRegister.select {s t u : State} {d c b : RegNum} {v : Word}
    (ht : WritesRegister s t d (if readGpr s c = 0#32 then v else readGpr s d))
    (hu : WritesRegister t u d (if readGpr t c ≠ 0#32 then readGpr t b else readGpr t d))
    (hc : c ≠ d) (hb : b ≠ d) :
    Holds u d (if readGpr s c = 0#32 then v else readGpr s b) := by
  have hfirst := ht.value
  have hsecond := hu.value
  rw [ht.others c hc, ht.others b hb] at hsecond
  by_cases hzero : readGpr s c = 0#32
  · rw [if_pos hzero] at hfirst ⊢
    rw [if_neg (not_not_intro hzero)] at hsecond
    exact hfirst.compute id hsecond
  · rw [if_neg hzero]
    rwa [if_pos hzero] at hsecond

/-- Settles O23: both pairs are the two moves of O22 that `WritesRegister.select` joins, one testing
`ry` and the other T. -/
theorem complementaryMovesSelect : Obligations.ComplementaryMovesSelect := by
  intro s rx ra rb ry hrb
  obtain ⟨-, -, -, -, -, ⟨t, hmovtz, ht⟩, -, ⟨x, hmovz, hx⟩⟩ := conditionalMoveResults s rx ra ry
  obtain ⟨-, -, -, ⟨u, hmovtn, hu⟩, -, -, -, -⟩ := conditionalMoveResults t rx rb ry
  obtain ⟨-, ⟨y, hmovn, hy⟩, -, -, -, -, -, -⟩ := conditionalMoveResults x rx rb ry
  rw [ht.cfg_eq] at hu
  rw [hx.cfg_eq] at hy
  exact ⟨fun hry => ⟨x, y, hmovz, hmovn, hx.select hy hry.symm hrb⟩,
    fun hT => ⟨t, u, hmovtz, hmovtn, ht.select hu hT.symm hrb⟩⟩

end Sys2Proof.Machine
end

section
/-! The family UnalignedStores (47_stores.md): the bytes SWL and SWR leave in memory (R249), and the
SC that stores in an intact sequence or is drawn in a weakened one (R243). -/

namespace Sys2Proof.Machine

/-! ## The bytes from an address up or down -/

/-- The bytes `bytes 0` to `bytes m`, the first at `p` and each next one address higher. -/
def upCells (p m : Nat) (bytes : Nat → Byte) : List (Nat × Byte) :=
  (List.range (m + 1)).map fun i => (p + i, bytes i)

/-- The bytes `bytes 0` to `bytes m`, the first at `p` and each next one address lower. -/
def downCells (p m : Nat) (bytes : Nat → Byte) : List (Nat × Byte) :=
  (List.range (m + 1)).map fun i => (p - i, bytes i)

variable {p m q : Nat} {bytes : Nat → Byte}

theorem upCells_addresses : (upCells p m bytes).map (·.1) = byteSpan p (m + 1) := by
  simp [upCells, byteSpan]

theorem upCells_nodup : ((upCells p m bytes).map (·.1)).Nodup :=
  upCells_addresses ▸ byteSpan_nodup ..

theorem mem_upCells_addresses : q ∈ (upCells p m bytes).map (·.1) ↔ p ≤ q ∧ q ≤ p + m := by
  rw [upCells_addresses, mem_byteSpan]
  omega

theorem mem_upCells (h : p ≤ q ∧ q ≤ p + m) : (q, bytes (q - p)) ∈ upCells p m bytes :=
  List.mem_map.mpr ⟨q - p, List.mem_range.mpr (by omega), Prod.ext (by omega) rfl⟩

theorem downCells_addresses :
    (downCells p m bytes).map (·.1) = (List.range (m + 1)).map (p - ·) := by
  simp [downCells]

/-- Going down, no two addresses are the same unless the run reaches below address 0. -/
theorem downCells_nodup (hm : m ≤ p) : ((downCells p m bytes).map (·.1)).Nodup := by
  rw [downCells_addresses]
  refine List.Nodup.map_on (fun i hi j hj hij => ?_) List.nodup_range
  rw [List.mem_range] at hi hj
  omega

theorem mem_downCells_addresses (hm : m ≤ p) :
    q ∈ (downCells p m bytes).map (·.1) ↔ p - m ≤ q ∧ q ≤ p := by
  simp only [downCells_addresses, List.mem_map, List.mem_range]
  constructor
  · rintro ⟨i, hi, rfl⟩
    omega
  · rintro ⟨hlow, hhigh⟩
    exact ⟨p - q, by omega, by omega⟩

theorem mem_downCells (h : p - m ≤ q ∧ q ≤ p) : (q, bytes (p - q)) ∈ downCells p m bytes :=
  List.mem_map.mpr ⟨p - q, List.mem_range.mpr (by omega), Prod.ext (by omega) rfl⟩

/-- Every byte of memory after a store that goes up from its address. -/
theorem Stores.readByte_upCells {s t : State} {a : Access}
    (h : Stores s t a (upCells p m bytes)) (q : Nat) :
    readByte t.mem q = if p ≤ q ∧ q ≤ p + m then bytes (q - p) else readByte s.mem q := by
  split
  next hin => exact h.stored _ (mem_upCells hin)
  next hout => exact h.others q (mt mem_upCells_addresses.mp hout)

/-- Every byte of memory after a store that goes down from its address. -/
theorem Stores.readByte_downCells {s t : State} {a : Access} (hm : m ≤ p)
    (h : Stores s t a (downCells p m bytes)) (q : Nat) :
    readByte t.mem q = if p - m ≤ q ∧ q ≤ p then bytes (p - q) else readByte s.mem q := by
  split
  next hin => exact h.stored _ (mem_downCells hin)
  next hout => exact h.others q (mt (mem_downCells_addresses hm).mp hout)

/-! ## The bytes of SWL and SWR -/

variable {b : Nat} {y : Word}

/-- SWL stores the bytes of the register from the highest on: big-endian up to the end of the aligned
word, little-endian down to its start (R249). -/
theorem leftCells_eq (be : Bool) (p : Nat) (y : Word) (hb : b < 4) :
    leftCells be p b y = if be then upCells p (3 - b) (fun i => byteOf y (3 - i))
      else downCells p b (fun i => byteOf y (3 - i)) := by
  rw [upCells, show 3 - b + 1 = 4 - b by omega]
  rfl

/-- SWR stores the bytes of the register from the lowest on, in the direction opposite to that of SWL
(R249). -/
theorem rightCells_eq (be : Bool) (p : Nat) (y : Word) (hb : b < 4) :
    rightCells be p b y = if be then downCells p b (byteOf y) else upCells p (3 - b) (byteOf y) := by
  rw [upCells, show 3 - b + 1 = 4 - b by omega]
  rfl

theorem leftCells_nodup (be : Bool) (hb : b < 4) (hle : b ≤ p) :
    ((leftCells be p b y).map (·.1)).Nodup := by
  rw [leftCells_eq be p y hb]
  cases be with
  | false => exact downCells_nodup hle
  | true => exact upCells_nodup

theorem rightCells_nodup (be : Bool) (hb : b < 4) (hle : b ≤ p) :
    ((rightCells be p b y).map (·.1)).Nodup := by
  rw [rightCells_eq be p y hb]
  cases be with
  | false => exact upCells_nodup
  | true => exact downCells_nodup hle

/-- Every byte of memory after an SWL (R249). -/
theorem Stores.readByte_leftCells {s t : State} {a : Access} {be : Bool} (hb : b < 4) (hle : b ≤ p)
    (h : Stores s t a (leftCells be p b y)) (q : Nat) :
    readByte t.mem q =
      if be then
        (if p ≤ q ∧ q ≤ p + (3 - b) then byteOf y (3 - (q - p)) else readByte s.mem q)
      else (if p - b ≤ q ∧ q ≤ p then byteOf y (3 - (p - q)) else readByte s.mem q) := by
  rw [leftCells_eq be p y hb] at h
  cases be with
  | false => exact h.readByte_downCells hle q
  | true => exact h.readByte_upCells q

/-- Every byte of memory after an SWR (R249). -/
theorem Stores.readByte_rightCells {s t : State} {a : Access} {be : Bool} (hb : b < 4) (hle : b ≤ p)
    (h : Stores s t a (rightCells be p b y)) (q : Nat) :
    readByte t.mem q =
      if be then (if p - b ≤ q ∧ q ≤ p then byteOf y (p - q) else readByte s.mem q)
      else (if p ≤ q ∧ q ≤ p + (3 - b) then byteOf y (q - p) else readByte s.mem q) := by
  rw [rightCells_eq be p y hb] at h
  cases be with
  | false => exact h.readByte_upCells q
  | true => exact h.readByte_downCells hle q

/-! ## SWL and SWR -/

/-- A translated address lies at its own offset in an aligned word, so that word does not begin
below address 0 (R66). -/
theorem lowBits_le_pAddr {s : State} {k : AccessKind} {v : Word} {a : Access}
    (h : translate s k v = .ok a) : v.toNat % 4 ≤ a.pAddr := by
  obtain ⟨-, hoffset, -⟩ := translate_ok h
  exact hoffset ▸ Nat.mod_le ..

/-- Where an SWL or SWR completes (R251). -/
theorem unalignedStore_stores {s : State} {imm : BitVec 9} {rb : RegField} {v : Word}
    {cells : Bool → Nat → Nat → Word → List (Nat × Byte)} {a : Access}
    (hv : baseAddr s rb imm = v) (hwf : Memory.wf s.mem = true)
    (hwatch : watchAt s.cfg .store v = false) (hbus : busErrorAt s.cfg .store a.pAddr = false)
    (hd : ((cells s.cfg.bigEndian a.pAddr (v.toNat % 4) y).map (·.1)).Nodup)
    (hwrite : CanWrite s v a ((cells s.cfg.bigEndian a.pAddr (v.toNat % 4) y).map (·.1))) :
    ∃ t, storeResult (unalignedStore s rb imm cells y) = .next t ∧
      Stores s t a (cells s.cfg.bigEndian a.pAddr (v.toNat % 4) y) := by
  subst hv
  have hopen : openAccess s .store 1 true true (baseAddr s rb imm) = .ok a :=
    openAccess_eq (Nat.mod_one _) hwrite.translated (fun _ => hwatch) (fun _ => hbus)
  refine ⟨stored s a _, ?_, stored_stores hwf a hd⟩
  simp only [unalignedStore, hopen, lowBits, storeBytes_eq (checkCells_of_canWrite hwrite),
    storeResult, stored]

/-- Settles O33: both forms complete as a store of their cells, a run up or down from the address. -/
theorem unalignedStoreResults : Obligations.UnalignedStoreResults := by
  intro s rx imm rb a v p b be y hwf hwatch hbus
  have hb : b < 4 := Nat.mod_lt _ (by decide)
  refine ⟨fun hwrite => ?_, fun hwrite => ?_⟩
  · have hle : b ≤ p := lowBits_le_pAddr hwrite.translated
    obtain ⟨t, hswl, ht⟩ := unalignedStore_stores (cells := leftCells) rfl hwf hwatch hbus
      (leftCells_nodup be hb hle) hwrite
    exact ⟨t, hswl, ht, ht.readByte_leftCells hb hle⟩
  · have hle : b ≤ p := lowBits_le_pAddr hwrite.translated
    obtain ⟨t, hswr, ht⟩ := unalignedStore_stores (cells := rightCells) rfl hwf hwatch hbus
      (rightCells_nodup be hb hle) hwrite
    exact ⟨t, hswr, ht, ht.readByte_rightCells hb hle⟩

/-! ## SC in an open sequence -/

/-- The test of the model is that of R256. -/
theorem windowOk_iff {s : State} : windowOk s = true ↔ inWindow s := by
  rw [windowOk, inWindow, decide_eq_true_eq]
  omega

/-- When the success of an SC is drawn: the rows of R243 that weaken the sequence, and the SC with no
LL before it (R244, D15). -/
theorem scIsDrawn_iff {s : State} {a : Access} :
    scIsDrawn s a = true ↔
      (s.llBit = true ∧ a ≠ s.llAddr ∧ config5LLB s = false) ∨
      (s.llBit = true ∧ a = s.llAddr ∧ (s.llTaint = true ∨ ¬ inWindow s)) ∨
      (s.llBit = false ∧ s.llSeen = false ∧ config5LLB s = false) := by
  rw [← windowOk_iff]
  cases hbit : s.llBit with
  | false => simp [scIsDrawn, hbit]
  | true => by_cases haddr : a = s.llAddr <;> simp [scIsDrawn, hbit, haddr]

/-- A drawn success takes one draw. -/
theorem scState_draws_of_drawn {s : State} {a : Access} (h : scIsDrawn s a = true) :
    (scState s a).draws = s.draws + 1 := by
  rw [scState, if_pos h, drawn_draws]

/-- Settles O35: an intact sequence at the LL's address is in no drawn row. -/
theorem scSucceedsWhenIntact : Obligations.ScSucceedsWhenIntact := by
  intro s rx imm rb a hwf hopen hwrite hbit haddr htaint hwindow
  have hdrawn : scIsDrawn s a = false := by
    rw [Bool.eq_false_iff, Ne, scIsDrawn_iff]
    simp [hbit, haddr, htaint, hwindow]
  have hsucceeds : scSucceeds s a = true := by
    rw [scSucceeds_of_notDrawn hdrawn, hbit, decide_eq_true haddr, Bool.and_self]
  have hsc := execSc_succeeds rx hwf hopen hwrite hsucceeds
  rwa [scState_of_notDrawn hdrawn] at hsc

/-- Settles O37: the rows are those of `scIsDrawn_iff`, and the draw decides between the two ends. -/
theorem scIsDrawnWhenWeakened : Obligations.ScIsDrawnWhenWeakened := by
  intro s rx imm rb a hwf hopen hwrite hrow
  have hdraws : (scState s a).draws = s.draws + 1 := scState_draws_of_drawn (scIsDrawn_iff.mpr hrow)
  cases hdecision : scSucceeds s a with
  | true =>
    obtain ⟨t, hsc, ht, hdrawn⟩ := execSc_succeeds rx hwf hopen hwrite hdecision
    exact ⟨t, hsc, .inl ht, hdrawn.trans hdraws⟩
  | false =>
    obtain ⟨t, hsc, ht, hdrawn⟩ := execSc_fails rx hopen hdecision
    exact ⟨t, hsc, .inr ht, hdrawn.trans hdraws⟩

end Sys2Proof.Machine
end

section
/-! The family State, continued: the program text, which no step writes (R78); the reset state; the
bytes and the pc that the fetch refuses (R28, R113). -/

namespace Sys2Proof.Machine

/-! ## The program text -/

/-- The parameters of `t` are those of `s`, its memory has the canonical form, and every byte of program
text reads as in `s`. -/
structure KeepsText (s t : State) : Prop where
  cfg : t.cfg = s.cfg
  memory : Memory.wf t.mem = true
  text : ∀ q, inText s.cfg q = true → readByte t.mem q = readByte s.mem q

/-- An update that leaves the parameters and the memory as they are. -/
theorem KeepsText.of_eq {s u v : State} (h : KeepsText s u) (hcfg : v.cfg = u.cfg)
    (hmem : v.mem = u.mem) : KeepsText s v :=
  ⟨hcfg.trans h.cfg, hmem ▸ h.memory, hmem ▸ h.text⟩

/-- Cells outside the program text are written beside every byte of it. -/
theorem KeepsText.writeBytes {s u v : State} (h : KeepsText s u) {cs : List (Nat × Byte)}
    (hcs : ∀ c ∈ cs, inText u.cfg c.1 = false) (hcfg : v.cfg = u.cfg)
    (hmem : v.mem = writeBytes u.mem cs) : KeepsText s v := by
  refine ⟨hcfg.trans h.cfg, hmem ▸ writeBytes_wf cs h.memory, fun q hq => ?_⟩
  have houtside : q ∉ cs.map (·.1) := by
    intro hin
    obtain ⟨c, hc, rfl⟩ := List.mem_map.mp hin
    simp [← h.cfg, hcs c hc] at hq
  rw [hmem, readByte_writeBytes_outside cs h.memory houtside, h.text q hq]

/-- The stores of an instruction are checked against the program text (D20); no other update writes
memory. -/
theorem KeepsText.instrUpdate {i : Instr} {s u v : State} (h : KeepsText s u)
    (huv : InstrUpdate i u v) : KeepsText s v := by
  cases huv with
  | store a cs _ hc => exact h.writeBytes (checkCells_ok.mp hc).2 rfl rfl
  | _ => exact h.of_eq rfl rfl

/-- The stores of another agent are checked against the program text as well (D20, R287). -/
theorem KeepsText.agent {s u v : State} (h : KeepsText s u) {e : EnvEvent}
    (he : applyEvent u e = .ok v) : KeepsText s v := by
  cases e with
  | store p bytes =>
    obtain ⟨-, htext, rfl⟩ := eventStore_ok he
    exact h.writeBytes htext rfl rfl
  | cacheOp => cases he; exact h.of_eq rfl rfl

theorem KeepsText.noteFetch {s u : State} (h : KeepsText s u) : KeepsText s (noteFetch u) := by
  unfold Machine.noteFetch
  split
  · exact h.of_eq rfl rfl
  · exact h

theorem KeepsText.stepUpdate {s u v : State} (h : KeepsText s u) (huv : StepUpdate u v) :
    KeepsText s v := by
  cases huv with
  | instr i _ _ _ hi => exact h.instrUpdate hi
  | agent _ _ e he => exact h.agent he
  | noteFetch => exact h.noteFetch
  | dequeue | advance | wait | draw => exact h.of_eq rfl rfl

/-- Settles O11: every single update of a step keeps the text of the state the step began in. -/
theorem stepKeepsProgramText : Obligations.StepKeepsProgramText := by
  intro s t hwf h
  have hkeeps : KeepsText s t :=
    step_keeps (fun _ _ huv hu => hu.stepUpdate huv) h ⟨rfl, hwf, fun _ _ => rfl⟩
  exact hkeeps.text

/-! ## Reset -/

/-- Settles O5: at reset no link is open, and memory, hazards and history are empty. -/
theorem resetHasInvariant : Obligations.ResetHasInvariant where
  memory := reset_memory_wf
  pcEven := by decide
  zero := rfl
  noDelaySlot := rfl
  hazardSet := .nil
  link := nofun
  seen := nofun
  window := nofun
  oneType := .nil
  text := nofun

/-! ## What the fetch refuses -/

/-- A first halfword that does not begin with EXTEND decides, whatever follows it (R100). -/
theorem decodeBytes_of_notExtended {be : Bool} {b0 b1 : Byte} (rest : List Byte)
    (h : startsExtended be [b0, b1] = false) :
    decodeBytes be (b0 :: b1 :: rest) = .error .notExtend :=
  if_pos (of_decide_eq_false h)

theorem decodeFetched_error {s : State} {bs : List Byte} {e : DecodeError}
    (h : decodeBytes s.cfg.bigEndian bs = .error e) :
    decodeFetched s bs = refuse (.notInSpec e) := by
  simp only [decodeFetched, h]

/-- Four bytes of populated program text that do not decode are refused by the name of what is wrong
with them, also where the first two alone decide (R113). -/
theorem fetch_notInSpec {s : State} {e : DecodeError} {a b : Access} (heven : s.pc.toNat % 2 = 0)
    (hroom : s.pc ≠ 0xFFFFFFFE#32) (ha : translate s .fetch s.pc = .ok a)
    (hb : translate s .fetch (s.pc + 2#32) = .ok b)
    (hq : ∀ q ∈ [a.pAddr, a.pAddr + 1, b.pAddr, b.pAddr + 1],
      populated s.cfg q = true ∧ inText s.cfg q = true)
    (he : decodeBytes s.cfg.bigEndian
      ([a.pAddr, a.pAddr + 1, b.pAddr, b.pAddr + 1].map (readByte s.mem)) = .error e) :
    fetch s = refuse (.notInSpec e) := by
  have hfirst := fetchHalf_eq ha fun q h => hq q (List.mem_append_left [b.pAddr, b.pAddr + 1] h)
  have hsecond := fetchHalf_eq hb fun q h => hq q (List.mem_append_right [a.pAddr, a.pAddr + 1] h)
  have hodd : ¬ s.pc.toNat % 2 = 1 := by omega
  simp only [fetch, hodd, hroom, hfirst, hsecond, if_false]
  cases hext : startsExtended s.cfg.bigEndian ([a.pAddr, a.pAddr + 1].map (readByte s.mem)) with
  | true => exact decodeFetched_error he
  | false =>
    have hname : DecodeError.notExtend = e :=
      Except.error.inj ((decodeBytes_of_notExtended _ hext).symm.trans he)
    exact hname ▸ decodeFetched_error (decodeBytes_of_notExtended [] hext)

theorem fetch_oddPc {s : State} (h : s.pc.toNat % 2 = 1) : fetch s = refuse .fetchOddPc := if_pos h

/-- A step whose fetch is refused is refused, with or without MIPS16e2. -/
theorem step_refused_of_fetch {s u : State} {r : Refusal} (hu : deliver s = .ok u)
    (hw : u.waiting = false) (h : fetch u = refuse r) : step s = .refused r := by
  simp only [step, hu, hw, h, Bool.false_eq_true, if_false]
  rfl

/-- Settles O9: in either case the fetch is refused, and the step with it. -/
theorem stepRefusesWhatIsNoInstruction : Obligations.StepRefusesWhatIsNoInstruction :=
  ⟨fun _ _ _ _ _ hu hw heven hroom ha hb hq he =>
    step_refused_of_fetch hu hw (fetch_notInSpec heven hroom ha hb hq he),
   fun _ _ hu hw hodd => step_refused_of_fetch hu hw (fetch_oddPc hodd)⟩

end Sys2Proof.Machine
end


section
/-! The family Exceptions (60_exceptions.md): the exceptions each shared operation can raise, in the
flavour of its access (R264), and with them the rows of R261. -/

namespace Sys2Proof.Machine

/-! ## Where an exception comes from -/

/-- An instruction that ends with a stop of one of its operations raises what the operation raises. -/
theorem raise_of_stopOutcome {α : Type} {r : Except Stop α} {x : Stop} {e : Trap}
    (hr : r = .error x) (h : stopOutcome x = .fault (.trap e)) : r = raise e := by
  rw [hr, stopOutcome_eq_fault.mp h]
  rfl

/-- A load ends in an exception only through its access. -/
theorem loadResult_trap {rx : RegField} {f : Access → Word} {r : Except Stop (Access × State)}
    {e : Trap} (h : loadResult rx f r = .fault (.trap e)) : r = raise e := by
  match r with
  | .error x => exact raise_of_stopOutcome rfl h
  | .ok (a, u) => cases h

/-- A store ends in an exception only through its access. -/
theorem storeResult_trap {r : Except Stop State} {e : Trap}
    (h : storeResult r = .fault (.trap e)) : r = raise e := by
  match r with
  | .error x => exact raise_of_stopOutcome rfl h
  | .ok u => cases h

/-- EXT and INS are UNPREDICTABLE where their fields name no part of the word, which is no exception. -/
theorem guarded_ne_trap {p : Prop} [Decidable p] {u : State} {why : Unpredictable} {e : Trap} :
    (if p then .fault (.unpredictable why) else .next u : Host.Outcome State Fault Refusal) ≠
      .fault (.trap e) := by
  split <;> nofun

/-! ## The operations that raise no exception -/

/-- Bytes that cannot be accessed are refused or UNPREDICTABLE (R70, R71). -/
theorem checkBytes_ne_raise {s : State} {a : Access} {bs : List Nat} {e : Trap} :
    checkBytes s a bs ≠ raise e := by
  unfold checkBytes
  split
  · nofun
  · split <;> nofun

theorem checkCells_ne_raise {s : State} {a : Access} {cs : List (Nat × Byte)} {e : Trap} :
    checkCells s a cs ≠ raise e := by
  intro h
  unfold checkCells at h
  split at h
  · rename_i hc
    cases h; exact checkBytes_ne_raise hc
  · split at h <;> cases h

theorem loadBytes_ne_raise {s : State} {a : Access} {bs : List Nat} {e : Trap} :
    loadBytes s a bs ≠ raise e := by
  intro h
  unfold loadBytes at h
  split at h
  · rename_i hc
    cases h; exact checkBytes_ne_raise hc
  · cases h

theorem storeBytes_ne_raise {s : State} {a : Access} {cs : List (Nat × Byte)} {e : Trap} :
    storeBytes s a cs ≠ raise e := by
  intro h
  unfold storeBytes at h
  split at h
  · rename_i hc
    cases h; exact checkCells_ne_raise hc
  · cases h

/-- Prefetching is a store at most, and that of a line that is checked like any other (R156). -/
theorem prefetch_ne_raise {s : State} {hint : BitVec 5} {a : Access} {e : Trap} :
    prefetch s hint a ≠ raise e := by
  have hprepare : prepareForStore s a ≠ raise e := by
    intro h
    unfold prepareForStore at h
    split at h
    · cases h
    · split at h
      · cases h
      · unfold zeroLine at h
        split at h
        · rename_i hc
          cases h; exact checkCells_ne_raise hc
        · cases h
  intro h
  unfold prefetch at h
  split at h
  · split at h
    · split at h
      · rename_i hp
        cases h; exact hprepare hp
      · cases h
    · cases h
  · cases h

/-! ## The exceptions of an address -/

/-- The Address Error and the TLB exceptions of a flavour (R264). -/
def addressTrap : Flavour → Trap → Bool
  | .load => loadAddressTrap
  | .store => storeAddressTrap

theorem addressTrap_addressError (f : Flavour) (v : Word) :
    addressTrap f (.addressError f v) = true := by
  cases f <;> rfl

/-- A translation raises in the flavour of its access: TLB Modified, which has none, is a store's. -/
theorem translate_addressTrap {s : State} {k : AccessKind} {v : Word} {e : Trap}
    (h : translate s k v = .error e) : addressTrap (flavourOf k) e = true := by
  obtain ⟨rfl, -⟩ | ⟨-, rfl | rfl | ⟨rfl, rfl⟩⟩ := translate_error h
  · exact addressTrap_addressError ..
  · cases k <;> rfl
  · cases k <;> rfl
  · rfl

/-- An access that does not open raises an exception of its address, or Bus Error or Watch where the
instruction lists it (R265). -/
theorem openAccess_trap {s : State} {k : AccessKind} {n : Nat} {w b : Bool} {v : Word} {e : Trap}
    (h : openAccess s k n w b v = raise e) :
    addressTrap (flavourOf k) e = true ∨ (b = true ∧ e = .busError) ∨ (w = true ∧ e = .watch) := by
  unfold openAccess at h
  split at h
  · cases h; exact .inl (addressTrap_addressError ..)
  · split at h
    · rename_i ht
      cases h; exact .inl (translate_addressTrap ht)
    · split at h
      · rename_i hw
        cases h; exact .inr (.inr ⟨(Bool.and_eq_true_iff.mp hw).1, rfl⟩)
      · split at h
        · rename_i hb
          cases h; exact .inr (.inl ⟨(Bool.and_eq_true_iff.mp hb).1, rfl⟩)
        · cases h

/-! ## The exceptions of the loads and the stores -/

theorem gpLoad_trap {s : State} {imm : BitVec 16} {n : Nat} {e : Trap}
    (h : gpLoad s imm n = raise e) : loadAddressTrap e = true ∨ e = .busError := by
  unfold gpLoad at h
  split at h
  · rename_i hopen
    cases h; simpa [flavourOf, addressTrap] using openAccess_trap hopen
  · split at h
    · rename_i hl
      cases h; exact absurd hl loadBytes_ne_raise
    · cases h

theorem gpStore_trap {s : State} {imm : BitVec 16} {n : Nat} {v : Word} {e : Trap}
    (h : gpStore s imm n v = raise e) : storeAddressTrap e = true ∨ e = .busError := by
  unfold gpStore at h
  split at h
  · rename_i hopen
    cases h; simpa [flavourOf, addressTrap] using openAccess_trap hopen
  · exact absurd h storeBytes_ne_raise

theorem unalignedLoad_trap {s : State} {rb : RegField} {imm : BitVec 9}
    {span : Bool → Nat → Nat → List Nat} {e : Trap} (h : unalignedLoad s rb imm span = raise e) :
    loadAddressTrap e = true ∨ e = .busError ∨ e = .watch := by
  simp only [unalignedLoad] at h
  split at h
  · rename_i hopen
    cases h; simpa [flavourOf, addressTrap] using openAccess_trap hopen
  · split at h
    · rename_i hl
      cases h; exact absurd hl loadBytes_ne_raise
    · cases h

theorem unalignedStore_trap {s : State} {rb : RegField} {imm : BitVec 9}
    {cells : Bool → Nat → Nat → Word → List (Nat × Byte)} {y : Word} {e : Trap}
    (h : unalignedStore s rb imm cells y = raise e) :
    storeAddressTrap e = true ∨ e = .busError ∨ e = .watch := by
  simp only [unalignedStore] at h
  split at h
  · rename_i hopen
    cases h; simpa [flavourOf, addressTrap] using openAccess_trap hopen
  · exact absurd h storeBytes_ne_raise

/-- A location that is not synchronizable is UNPREDICTABLE for LL, which lists no Bus Error (R261, U13). -/
theorem openLinked_trap {s : State} {v : Word} {e : Trap} (h : openLinked s v = raise e) :
    loadAddressTrap e = true ∨ e = .watch := by
  unfold openLinked at h
  split at h
  · rename_i hopen
    cases h; simpa [flavourOf, addressTrap] using openAccess_trap hopen
  · split at h <;> cases h

/-- A location that is not synchronizable is UNPREDICTABLE for SC, which lists no Bus Error (R261, U13). -/
theorem openConditional_trap {s : State} {v : Word} {e : Trap} (h : openConditional s v = raise e) :
    storeAddressTrap e = true ∨ e = .watch := by
  unfold openConditional at h
  split at h
  · rename_i hopen
    cases h; simpa [flavourOf, addressTrap] using openAccess_trap hopen
  · split at h <;> cases h

theorem execLl_trap {s : State} {rx rb : RegField} {imm : BitVec 9} {e : Trap}
    (h : execLl rx imm rb s = .fault (.trap e)) : loadAddressTrap e = true ∨ e = .watch := by
  unfold execLl at h
  split at h
  · rename_i hx
    exact openLinked_trap (raise_of_stopOutcome hx h)
  · split at h
    · rename_i hx
      exact absurd (raise_of_stopOutcome hx h) checkBytes_ne_raise
    · cases h

theorem execSc_trap {s : State} {rx rb : RegField} {imm : BitVec 9} {e : Trap}
    (h : execSc rx imm rb s = .fault (.trap e)) : storeAddressTrap e = true ∨ e = .watch := by
  unfold execSc at h
  split at h
  · rename_i hx
    exact openConditional_trap (raise_of_stopOutcome hx h)
  · split at h
    · split at h
      · rename_i hx
        exact absurd (raise_of_stopOutcome hx h) checkCells_ne_raise
      · cases h
    · cases h

/-! ## The exceptions of coprocessor 0 -/

theorem requireCop0_trap {s : State} {e : Trap} (h : requireCop0 s = raise e) :
    e = .coprocessorUnusable 0 := by
  unfold requireCop0 at h
  split at h <;> cases h
  rfl

theorem requireMT_trap {s : State} {e : Trap} (h : requireMT s = raise e) :
    e = .reservedInstruction := by
  unfold requireMT at h
  split at h <;> cases h
  rfl

theorem withCop0_trap {s : State} {k : State → State} {e : Trap}
    (h : withCop0 s k = .fault (.trap e)) : e = .coprocessorUnusable 0 := by
  unfold withCop0 at h
  split at h
  · rename_i hx
    exact requireCop0_trap (raise_of_stopOutcome hx h)
  · cases h

theorem withMT_trap {s : State} {k : State → State} {e : Trap} (h : withMT s k = .fault (.trap e)) :
    e = .coprocessorUnusable 0 ∨ e = .reservedInstruction := by
  unfold withMT at h
  split at h
  · rename_i hx
    exact .inl (requireCop0_trap (raise_of_stopOutcome hx h))
  · split at h
    · rename_i hx
      exact .inr (requireMT_trap (raise_of_stopOutcome hx h))
    · cases h

theorem execMfc0_trap {s : State} {ry : RegField} {r32 : BitVec 5} {sel : BitVec 3} {e : Trap}
    (h : execMfc0 ry r32 sel s = .fault (.trap e)) : e = .coprocessorUnusable 0 := by
  unfold execMfc0 at h
  split at h
  · rename_i hx
    exact requireCop0_trap (raise_of_stopOutcome hx h)
  · split at h
    · cases h
    · split at h <;> cases h

theorem execMtc0_trap {s : State} {ry : RegField} {r32 : BitVec 5} {sel : BitVec 3} {e : Trap}
    (h : execMtc0 ry r32 sel s = .fault (.trap e)) : e = .coprocessorUnusable 0 := by
  unfold execMtc0 at h
  split at h
  · rename_i hx
    exact requireCop0_trap (raise_of_stopOutcome hx h)
  · split at h <;> cases h

theorem execRdhwr_trap {s : State} {ry : RegField} {n : BitVec 5} {e : Trap}
    (h : execRdhwr ry n s = .fault (.trap e)) : e = .reservedInstruction := by
  unfold execRdhwr at h
  split at h
  · cases h; rfl
  · split at h
    · cases h
    · split at h <;> cases h
      rfl

/-! ## The exceptions of CACHE, PREF and PAUSE -/

/-- PREF never raises an exception of its address, nor any from what it prefetches (R155, R157). -/
theorem execPref_trap {s : State} {hint : BitVec 5} {imm : BitVec 9} {rx : RegField} {e : Trap}
    (h : execPref hint imm rx s = .fault (.trap e)) : e = .reservedInstruction := by
  unfold execPref at h
  split at h
  · cases h; rfl
  · split at h
    · cases h
    · split at h
      · rename_i hx
        exact absurd (raise_of_stopOutcome hx h) prefetch_ne_raise
      · cases h

theorem cacheFinish_trap {s : State} {a : Access} {effect : CacheEffect} {e : Trap}
    (h : cacheFinish s a effect = .fault (.trap e)) : e = .cacheError ∨ e = .busError := by
  cases effect with
  | cacheError => cases h; exact .inl rfl
  | busError => cases h; exact .inr rfl
  | absent | refuse | notImplemented | keep | loadTag => cases h

theorem cacheOperation_trap {s : State} {op : BitVec 5} {a : Access} {e : Trap}
    (h : cacheOperation s op a = .fault (.trap e)) : e = .cacheError ∨ e = .busError := by
  simp only [cacheOperation] at h
  split at h
  · exact cacheFinish_trap h
  · split at h
    · rename_i hx
      exact absurd (raise_of_stopOutcome hx h) checkCacheUse_ne_raise
    · exact cacheFinish_trap h

/-- CACHE translates in the load flavour and never raises Watch (R150, R268). -/
theorem execCache_trap {s : State} {op : BitVec 5} {imm : BitVec 9} {rx : RegField} {e : Trap}
    (h : execCache op imm rx s = .fault (.trap e)) :
    loadAddressTrap e = true ∨ e = .coprocessorUnusable 0 ∨ e = .cacheError ∨ e = .busError := by
  unfold execCache at h
  split at h
  · rename_i hx
    exact .inr (.inl (requireCop0_trap (raise_of_stopOutcome hx h)))
  · split at h
    · rename_i ht
      cases h; exact .inl (translate_addressTrap ht)
    · exact .inr (.inr (cacheOperation_trap h))

/-- A PAUSE in a delay slot is UNPREDICTABLE, which is no exception (R193). -/
theorem execPause_ne_trap {s : State} {e : Trap} : execPause s ≠ .fault (.trap e) := by
  unfold execPause
  split
  · nofun
  · split <;> nofun

/-! ## The rows of R261 -/

/-- Settles O16, form by form: the exceptions of its operations are in its row. -/
theorem onlyListedExceptions : Obligations.OnlyListedExceptions := by
  intro i s e h
  cases i with
  | addiuGp | andi | lui | ori | xori | ehb | sync => cases h
  | movnZero | movn | movtnZero | movtn | movtzZero | movtz | movzZero | movz => cases h
  | ext | insZero | ins => exact absurd h guarded_ne_trap
  | pause => exact absurd h execPause_ne_trap
  | di | diRy | ei | eiRy => simp [mayRaise, withCop0_trap h]
  | mfc0 => simp [mayRaise, execMfc0_trap h]
  | mtc0 => simp [mayRaise, execMtc0_trap h]
  | dmt | dmtRy | emt | emtRy | dvpe | dvpeRy | evpe | evpeRy => simpa [mayRaise] using withMT_trap h
  | rdhwr => simp [mayRaise, execRdhwr_trap h]
  | lb | lbu | lh | lhu | lw => simpa [mayRaise] using gpLoad_trap (loadResult_trap h)
  | lwl | lwr => simpa [mayRaise, or_assoc] using unalignedLoad_trap (loadResult_trap h)
  | ll => simpa [mayRaise] using execLl_trap h
  | sb | sh | sw => simpa [mayRaise] using gpStore_trap (storeResult_trap h)
  | swl | swr => simpa [mayRaise, or_assoc] using unalignedStore_trap (storeResult_trap h)
  | sc => simpa [mayRaise] using execSc_trap h
  | cache => simpa [mayRaise, or_assoc] using execCache_trap h
  | pref => simp [mayRaise, execPref_trap h]

end Sys2Proof.Machine
end
